-- ==== Sys2Proof/Word.lean ====
section
/-! DEFINITION. The machine's words: bytes, half words, words. Every value of the block is unsigned (00_scope R11). -/

namespace Sys2Proof

/-- One byte: a packet byte, a buffer byte, an 8-bit length or index (30_encoding R80, 20_memory R60). -/
abbrev Byte := BitVec 8

/-- A 16-bit operand, `imm16` (30_encoding R81). -/
abbrev Half := BitVec 16

/-- A 32-bit word: a response value, a status register, a counter (30_encoding R87, 10_state R47). -/
abbrev Word := BitVec 32

/-- A 7-bit device address (10_state R28). -/
abbrev Addr7 := BitVec 7

/-- A slot number or a requester identity (10_state R41, R45). -/
abbrev Slot := BitVec 3

end Sys2Proof
end

