-- ==== Sys2Proof/Config.lean ====
section
/-! DEFINITION. The implementation parameters (00_scope R7), the fixed numbers, and the one free value of the model. -/

namespace Sys2Proof

/-- FREE VALUE. I2C_TIMEOUT_CYCLES less one: the spec leaves the parameter OPEN, 1 to 2^32 - 1, with no default
(00_scope R7, 92_eei_decisions D11). Nothing can be proved of it but its range (log 2, safe). -/
opaque Config.timeoutLessOne : Fin 4294967295

/-- How the parameter I2C_TIMEOUT_CYCLES is given: left open, or as a number. -/
inductive Timeout where
  /-- As the spec leaves it: open. -/
  | unstated
  /-- A configuration that states it. -/
  | cycles (n : Nat)
  deriving DecidableEq, Repr

/-- The parameters of 00_scope R7. They are arguments of the model, never written by a step (10_state R51).
`State` carries one of these unchanged, because `exec` has no other argument (log 1, DESIGN CHOICE, safe). -/
structure Config where
  /-- TB_WIDTH: width in bits of the millisecond counter. -/
  tbWidth : Nat
  /-- I2C_BUF_LEN: capacity in bytes of each of the two buffers. -/
  i2cBufLen : Nat
  /-- I2C_ERRLOG_LEN: capacity in entries of the error history. -/
  i2cErrlogLen : Nat
  /-- I2C_TIMEOUT_CYCLES, given or left open; `Config.i2cTimeoutCycles` is its value. -/
  i2cTimeout : Timeout
  /-- SCH_ENABLE_MASK: bit i set means slot i is polled. -/
  schEnableMask : BitVec 6
  deriving DecidableEq, Repr

/-- I2C_TIMEOUT_CYCLES: `I2C.WAIT` spins after which an outstanding operation times out (00_scope R7). -/
def Config.i2cTimeoutCycles (c : Config) : Nat :=
  match c.i2cTimeout with
  | .unstated => Config.timeoutLessOne.val + 1
  | .cycles n => n

/-- N_DEV: the number of poll slots, fixed (00_scope R7). -/
def Config.nDev : Nat := 6

/-- The requester identity of `main` (43_scheduler_gate R181). -/
def Config.idMain : Slot := 7

/-- The constraints that 00_scope R7 puts on the parameters. -/
abbrev Config.wf (c : Config) : Prop :=
  (8 ≤ c.tbWidth ∧ c.tbWidth ≤ 32) ∧ (19 ≤ c.i2cBufLen ∧ c.i2cBufLen ≤ 255) ∧
  (1 ≤ c.i2cErrlogLen ∧ c.i2cErrlogLen ≤ 255) ∧
  (1 ≤ c.i2cTimeoutCycles ∧ c.i2cTimeoutCycles ≤ 4294967295) ∧ c.schEnableMask ≠ 0

/-- The configuration of `State.reset`: the defaults of 00_scope R7, the timeout left open. -/
def Config.default : Config where
  tbWidth := 32
  i2cBufLen := 32
  i2cErrlogLen := 16
  i2cTimeout := .unstated
  schEnableMask := 0b000111

end Sys2Proof
end

