-- ==== Sys2Proof/Syntax.lean ====
section
/-! DEFINITION. The instructions (one constructor per row of `spec/opcode_table.json`), the packets and records that
carry them, and the step labels of the agents (00_scope R8). -/

namespace Sys2Proof

/-- One constructor per row of the opcode table: 21 commands (30_encoding R83), 5 bus responses (30_encoding R90).
Operands are the raw immediates; what is wrong with one is judged by the command's own rule (30_encoding R84). -/
inductive Instr where
  /-- `SCH.RUN`, 43_scheduler_gate R182. -/
  | schRun
  /-- `SCH.RET`, 43_scheduler_gate R184. -/
  | schRet
  /-- `SYS.RD r`, 43_scheduler_gate R188. -/
  | sysRd (r : Byte)
  /-- `TB.START`, 40_timebase R101. -/
  | tbStart
  /-- `TB.STOP`, 40_timebase R102. -/
  | tbStop
  /-- `TB.NOW`, 40_timebase R103. -/
  | tbNow
  /-- `TB.ELAPSED s`, 40_timebase R104. -/
  | tbElapsed (stamp : Word)
  /-- `DLY.MS n`, 40_timebase R106. -/
  | dlyMs (n : Half)
  /-- `DLY.US n`, 40_timebase R107. -/
  | dlyUs (n : Half)
  /-- `I2C.INIT a`, 41_i2c_transport R121. -/
  | i2cInit (a : Byte)
  /-- `I2C.SETADDR a`, 41_i2c_transport R122. -/
  | i2cSetaddr (a : Byte)
  /-- `I2C.RESET`, 41_i2c_transport R123. -/
  | i2cReset
  /-- `I2C.PUSH b`, 41_i2c_transport R124. -/
  | i2cPush (b : Byte)
  /-- `I2C.STARTTX`, 41_i2c_transport R126. -/
  | i2cStarttx
  /-- `I2C.STARTRX n`, 41_i2c_transport R127. -/
  | i2cStartrx (n : Byte)
  /-- `I2C.WAIT`, 41_i2c_transport R131. -/
  | i2cWait
  /-- `I2C.RESULT`, 41_i2c_transport R132. -/
  | i2cResult
  /-- `I2C.RXRD i`, 41_i2c_transport R133. -/
  | i2cRxrd (i : Byte)
  /-- `I2C.ERRRD i`, 41_i2c_transport R134. -/
  | i2cErrrd (i : Byte)
  /-- `GATE.REQ`, 43_scheduler_gate R186. -/
  | gateReq
  /-- `GATE.REL`, 43_scheduler_gate R187. -/
  | gateRel
  /-- `BUS.ACK`, 42_i2c_bus_fsm R151. -/
  | busAck
  /-- `BUS.NACK`, 42_i2c_bus_fsm R151. -/
  | busNack
  /-- `BUS.DATA b`, 42_i2c_bus_fsm R151. -/
  | busData (b : Byte)
  /-- `BUS.STOPPED`, 42_i2c_bus_fsm R151. -/
  | busStopped
  /-- `BUS.COLLISION`, 42_i2c_bus_fsm R151. -/
  | busCollision
  deriving DecidableEq, Repr

/-- The five rows with format BR: responses of the bus, not commands of the HOST (30_encoding R90). -/
def Instr.isBus : Instr → Bool
  | .busAck | .busNack | .busData _ | .busStopped | .busCollision => true
  | .schRun | .schRet | .sysRd _ | .tbStart | .tbStop | .tbNow | .tbElapsed _ | .dlyMs _ | .dlyUs _
  | .i2cInit _ | .i2cSetaddr _ | .i2cReset | .i2cPush _ | .i2cStarttx | .i2cStartrx _ | .i2cWait | .i2cResult
  | .i2cRxrd _ | .i2cErrrd _ | .gateReq | .gateRel => false

/-- A command packet: a non-empty list of bytes, the first one the opcode (30_encoding R80). -/
structure Packet where
  opcode : Byte
  operand : List Byte
  deriving DecidableEq, Repr

/-- A bus response as the two-byte record `{kind, data}` (30_encoding R90). -/
structure Record where
  kind : Byte
  data : Byte
  deriving DecidableEq, Repr

/-- The labels of the environment's steps (00_scope R8). `DISPATCH` is none of them: it is forced (60_exceptions R203). -/
inductive Label where
  /-- HOST presents a command packet. -/
  | cmd (p : Packet)
  /-- SCHED hands the thread to the next enabled slot. -/
  | poll
  /-- TICKSRC: the periodic millisecond event. -/
  | tick
  /-- USRC: the free-running microsecond counter advances. -/
  | usTick
  /-- BUS: the bus answers the controller. -/
  | bus (r : Record)
  /-- One environment step that is both a `TICK` and a `BUS(r)` (60_exceptions R208). -/
  | tickBus (r : Record)
  deriving DecidableEq, Repr

/-- A label of the HOST agent. -/
def Label.isCmd : Label → Bool
  | .cmd _ => true
  | .poll | .tick | .usTick | .bus _ | .tickBus _ => false

end Sys2Proof
end

