-- ==== Sys2Proof/WellFormed.lean ====
section
/-! DEFINITION. Which operands an instruction may carry: the range checks that need no state (60_exceptions R211, line 3). -/

namespace Sys2Proof

/-- Bit 7 of an address operand is 0 (30_encoding R82). -/
def addressOk (a : Byte) : Bool := !a.getLsbD 7

/-- A receive count is 1 to I2C_BUF_LEN (41_i2c_transport R127). -/
def countOk (c : Config) (n : Byte) : Bool := decide (1 ≤ n.toNat) && decide (n.toNat ≤ c.i2cBufLen)

/-- A timestamp fits TB_WIDTH bits (40_timebase R104). -/
def stampOk (c : Config) (stamp : Word) : Bool := decide (stamp.toNat < 2 ^ c.tbWidth)

/-- The status-register numbers that exist (10_state R47, 43_scheduler_gate R188). -/
def sregNumbers : List Byte := [0x01, 0x02, 0x03, 0x10, 0x11, 0x12, 0x13, 0x14, 0x15, 0x20, 0x21]

/-- A status-register number is one of the list (43_scheduler_gate R188). -/
def sregOk (r : Byte) : Bool := sregNumbers.contains r

/-- The instruction's operand is one its rule admits whatever the state. -/
def Instr.wf (c : Config) : Instr → Bool
  | .sysRd r => sregOk r
  | .tbElapsed stamp => stampOk c stamp
  | .i2cInit a => addressOk a
  | .i2cSetaddr a => addressOk a
  | .i2cStartrx n => countOk c n
  | .schRun | .schRet | .tbStart | .tbStop | .tbNow | .dlyMs _ | .dlyUs _ | .i2cReset | .i2cPush _
  | .i2cStarttx | .i2cWait | .i2cResult | .i2cRxrd _ | .i2cErrrd _ | .gateReq | .gateRel
  | .busAck | .busNack | .busData _ | .busStopped | .busCollision => true

end Sys2Proof
end

