-- ==== Sys2Proof/Decode.lean ====
section
/-! DEFINITION. Decoding packets and bus records, total and rejecting by name, and the encoder beside it
(30_encoding R80 to R90). Byte order is little-endian (20_memory R61). -/

namespace Sys2Proof

/-- Why bytes are no instruction. -/
inductive DecodeError where
  /-- A reserved opcode (30_encoding R85). -/
  | illegal
  /-- A packet whose length is not that of its opcode's format (30_encoding R84). -/
  | length
  /-- A two-byte record that is none of the five responses (30_encoding R90). -/
  | notARecord
  /-- A label that carries no bytes: `TICK`, `USTICK`, `POLL` (30_encoding R90). -/
  | noBytes
  deriving DecidableEq, Repr

/-- The four packet formats (30_encoding R81), each with the instruction its operand makes. -/
inductive Form where
  | f0 (i : Instr)
  | f1 (mk : Byte → Instr)
  | f2 (mk : Half → Instr)
  | f4 (mk : Word → Instr)

/-- The opcode map (30_encoding R83); `none` is a reserved opcode (R85). -/
def formOf (opcode : Byte) : Option Form :=
  match opcode.toNat with
  | 0x01 => some (.f0 .schRun)
  | 0x02 => some (.f0 .schRet)
  | 0x04 => some (.f1 .sysRd)
  | 0x10 => some (.f0 .tbStart)
  | 0x11 => some (.f0 .tbStop)
  | 0x12 => some (.f0 .tbNow)
  | 0x13 => some (.f4 .tbElapsed)
  | 0x14 => some (.f2 .dlyMs)
  | 0x15 => some (.f2 .dlyUs)
  | 0x20 => some (.f1 .i2cInit)
  | 0x21 => some (.f1 .i2cSetaddr)
  | 0x22 => some (.f0 .i2cReset)
  | 0x23 => some (.f1 .i2cPush)
  | 0x24 => some (.f0 .i2cStarttx)
  | 0x25 => some (.f1 .i2cStartrx)
  | 0x26 => some (.f0 .i2cWait)
  | 0x27 => some (.f0 .i2cResult)
  | 0x28 => some (.f1 .i2cRxrd)
  | 0x29 => some (.f1 .i2cErrrd)
  | 0x30 => some (.f0 .gateReq)
  | 0x31 => some (.f0 .gateRel)
  | _ => none

/-- How many operand bytes a format has (30_encoding R81). -/
def Form.operandLength : Form → Nat
  | .f0 _ => 0
  | .f1 _ => 1
  | .f2 _ => 2
  | .f4 _ => 4

/-- `imm16` of 30_encoding R82: the first byte is the least significant. -/
def imm16 (b0 b1 : Byte) : Half := b1 ++ b0

/-- `imm32` of 30_encoding R82: the first byte is the least significant. -/
def imm32 (b0 b1 b2 b3 : Byte) : Word := b3 ++ b2 ++ b1 ++ b0

/-- `Decode(pkt)` of 30_encoding R84: the opcode first, then the length, then the operand. -/
def decodePacket (p : Packet) : Except DecodeError Instr :=
  match formOf p.opcode with
  | none => .error .illegal
  | some (.f0 i) => match p.operand with
    | [] => .ok i
    | _ => .error .length
  | some (.f1 mk) => match p.operand with
    | [b] => .ok (mk b)
    | _ => .error .length
  | some (.f2 mk) => match p.operand with
    | [b0, b1] => .ok (mk (imm16 b0 b1))
    | _ => .error .length
  | some (.f4 mk) => match p.operand with
    | [b0, b1, b2, b3] => .ok (mk (imm32 b0 b1 b2 b3))
    | _ => .error .length

/-- The record table of 30_encoding R90: the data byte is 0 but in `BUS.DATA` (log 14). -/
def decodeRecord (r : Record) : Except DecodeError Instr :=
  match r.kind.toNat, r.data == 0 with
  | 0x01, true => .ok .busAck
  | 0x02, true => .ok .busNack
  | 0x03, _ => .ok (.busData r.data)
  | 0x04, true => .ok .busStopped
  | 0x05, true => .ok .busCollision
  | _, _ => .error .notARecord

/-- What a label's bytes say. Packets and records arrive at different ports, so `04 00` is `SYS.RD 0` from the HOST
and `BUS.STOPPED` from the bus. -/
def decode : Label → Except DecodeError Instr
  | .cmd p => decodePacket p
  | .bus r => decodeRecord r
  | .tickBus r => decodeRecord r
  | .poll | .tick | .usTick => .error .noBytes

/-- Byte `k` of a value, byte 0 the least significant (00_scope R11). -/
def byteAt {w : Nat} (v : BitVec w) (k : Nat) : Byte := v.extractLsb' (8 * k) 8

/-- The bytes of an instruction, at the port they arrive at (30_encoding R83, R90). -/
def encode : Instr → Label
  | .schRun => .cmd ⟨0x01, []⟩
  | .schRet => .cmd ⟨0x02, []⟩
  | .sysRd r => .cmd ⟨0x04, [r]⟩
  | .tbStart => .cmd ⟨0x10, []⟩
  | .tbStop => .cmd ⟨0x11, []⟩
  | .tbNow => .cmd ⟨0x12, []⟩
  | .tbElapsed s => .cmd ⟨0x13, [byteAt s 0, byteAt s 1, byteAt s 2, byteAt s 3]⟩
  | .dlyMs n => .cmd ⟨0x14, [byteAt n 0, byteAt n 1]⟩
  | .dlyUs n => .cmd ⟨0x15, [byteAt n 0, byteAt n 1]⟩
  | .i2cInit a => .cmd ⟨0x20, [a]⟩
  | .i2cSetaddr a => .cmd ⟨0x21, [a]⟩
  | .i2cReset => .cmd ⟨0x22, []⟩
  | .i2cPush b => .cmd ⟨0x23, [b]⟩
  | .i2cStarttx => .cmd ⟨0x24, []⟩
  | .i2cStartrx n => .cmd ⟨0x25, [n]⟩
  | .i2cWait => .cmd ⟨0x26, []⟩
  | .i2cResult => .cmd ⟨0x27, []⟩
  | .i2cRxrd i => .cmd ⟨0x28, [i]⟩
  | .i2cErrrd i => .cmd ⟨0x29, [i]⟩
  | .gateReq => .cmd ⟨0x30, []⟩
  | .gateRel => .cmd ⟨0x31, []⟩
  | .busAck => .bus ⟨0x01, 0⟩
  | .busNack => .bus ⟨0x02, 0⟩
  | .busData b => .bus ⟨0x03, b⟩
  | .busStopped => .bus ⟨0x04, 0⟩
  | .busCollision => .bus ⟨0x05, 0⟩

/-! ### The table's words, numbered as `opcode_table.json` numbers them -/

/-- Byte `k` of an instruction's bits. -/
def tableByte (nbits w k : Nat) : Byte := BitVec.ofNat 8 (w % 2 ^ nbits / 2 ^ (8 * k))

/-- `n` operand bytes from byte `k` on. -/
def tableBytes (nbits w : Nat) : Nat → Nat → List Byte
  | _, 0 => []
  | k, n + 1 => tableByte nbits w k :: tableBytes nbits w (k + 1) n

/-- The bits read as a HOST packet: as many operand bytes as the bits hold, or as the opcode's format asks, the missing ones 0. -/
def tablePacket (nbits w : Nat) : Packet :=
  let opcode := tableByte nbits w 0
  let wanted := match formOf opcode with
    | some f => f.operandLength
    | none => 0
  ⟨opcode, tableBytes nbits w 1 (max ((nbits + 7) / 8 - 1) wanted)⟩

/-- The bits read as a bus record. -/
def tableRecord (nbits w : Nat) : Record := ⟨tableByte nbits w 0, tableByte nbits w 1⟩

/-- A command whose word the table admits: of the commands that share their bytes with a record only `SYS.RD` has an operand. -/
def tableCommand : Except DecodeError Instr → Bool
  | .ok (.sysRd r) => sregOk r
  | .ok _ => true
  | .error _ => false

/-- The port a table word arrives at: the HOST where the bits are a legal command, else the bus where they are one of the
five records, else the HOST, whose decoder rejects them (log 9, DESIGN CHOICE). -/
def labelOfWord (nbits w : Nat) : Label :=
  if tableCommand (decodePacket (tablePacket nbits w)) then .cmd (tablePacket nbits w)
  else if decide (nbits ≤ 16) && (decodeRecord (tableRecord nbits w)).toBool then .bus (tableRecord nbits w)
  else .cmd (tablePacket nbits w)

/-- The instruction the decoder reads from a table word. -/
def decodeTableWord (nbits w : Nat) : Option Instr := (decode (labelOfWord nbits w)).toOption

end Sys2Proof
end

