-- ==== Sys2Proof/Machine/State.lean ====
section
/-! DEFINITION. The machine's state as plain data (10_state), its reset (10_state R54), and the reasons a step can stop. -/

namespace Sys2Proof.Machine

/-- The three indexed byte spaces (20_memory R60). -/
inductive Space where
  | txbuf
  | rxbuf
  | errlog
  deriving DecidableEq, Repr

/-- The contents of one space: (index, byte) pairs, indices strictly rising, no byte equal to what an unlisted index reads as. -/
abbrev Memory := List Host.Cell

/-- The bus-controller phase (10_state R31). The 3-bit values 5 to 7 are never taken, so they are no constructors. -/
inductive Phase where
  | idle
  | addr
  | tx
  | rx
  | stop
  deriving DecidableEq, Repr

/-- The direction of an operation (10_state R32). -/
inductive Dir where
  | transmit
  | receive
  deriving DecidableEq, Repr

/-- The event latch `i2c_ev` (10_state R39). The 3-bit value 7 is never taken. -/
inductive Event where
  | none
  | ack
  | nack
  | data
  | stopped
  | wcol
  | timeout
  deriving DecidableEq, Repr

/-- The four transport faults (60_exceptions R215). -/
inductive FaultKind where
  | anack
  | dnack
  | wcol
  | timeout
  deriving DecidableEq, Repr

/-- The five callbacks (10_state R52). -/
inductive Callback where
  | done
  | fault (k : FaultKind)
  deriving DecidableEq, Repr

/-- An output event (10_state R52). -/
inductive TraceEvent where
  | poll (slot : Slot)
  | cb (k : Callback)
  deriving DecidableEq, Repr

/-- A symbol of the I2C wire history (10_state R53). -/
inductive WireSym where
  /-- `S`, start condition. -/
  | start
  /-- `AD(a, rw)`, address byte. -/
  | ad (a : Addr7) (d : Dir)
  /-- `A`, the device acknowledged. -/
  | ack
  /-- `N`, the device did not acknowledge. -/
  | nack
  /-- `W(b)`, the master sent a data byte. -/
  | sent (b : Byte)
  /-- `R(b)`, the device sent a data byte. -/
  | received (b : Byte)
  /-- `MA`, the master acknowledged a received byte. -/
  | masterAck
  /-- `MN`, the master did not acknowledge the last received byte. -/
  | masterNack
  /-- `P`, stop condition. -/
  | stop
  deriving DecidableEq, Repr

/-- The status codes (60_exceptions R210); codes 0x07 to 0xFF are never produced. -/
inductive Status where
  | ok
  | illegal
  | length
  | operand
  | state
  | notInit
  | denied
  deriving DecidableEq, Repr

/-- A response `(st, val)` (00_scope R13, 30_encoding R87). -/
structure Response where
  st : Status
  val : Word
  deriving DecidableEq, Repr

/-- Why the machine stops with a fault. -/
inductive Fault where
  /-- Raised by `loadByte` and `storeByte` on an index at or beyond a space's capacity, which the spec says does not exist
  (20_memory R60, R77; log 13). Safe: the machine stops where no rule says what happens; no reachable state gets there. -/
  | outsideSpace (sp : Space) (i : Nat)
  deriving DecidableEq, Repr

/-- Why a label has no meaning. -/
inductive Refusal where
  /-- Raised by an arm of `exec` that has no meaning yet; no arm uses it. Safe. -/
  | notModelled (mnemonic : String)
  /-- Raised by `perform` on a bus label whose two bytes are none of the five records of 30_encoding R90 (log 14).
  Safe: the spec has no such step. -/
  | notABusRecord (r : Record)
  deriving DecidableEq, Repr

/-- Every piece of state of 10_state, the parameters of 00_scope R7 unchanged, and two fields of the model (`resps`, `agenda`). -/
structure State where
  /-- The parameters, written by no step (10_state R51, log 1). -/
  cfg : Config
  /-- `tb_count` (R22): the low TB_WIDTH bits; `State.tbVal` is its one reader (log 17). -/
  tbCount : Word
  /-- `tb_run` (R23). -/
  tbRun : Bool
  /-- `fr_count` (R24). -/
  frCount : Word
  /-- `dly_active` (R25). -/
  dlyActive : Bool
  /-- `dly_t0` (R25). -/
  dlyT0 : Word
  /-- `dly_need` (R25). -/
  dlyNeed : Word
  /-- `i2c_inited` (R26). -/
  i2cInited : Bool
  /-- `i2c_cb_en` (R27): bit 0 CB_DONE, 1 CB_ANACK, 2 CB_DNACK, 3 CB_WCOL, 4 CB_TIMEOUT. -/
  i2cCbEn : BitVec 5
  /-- `i2c_addr` (R28). -/
  i2cAddr : Addr7
  /-- `i2c_busy` (R29). -/
  i2cBusy : Bool
  /-- `i2c_error` (R30). -/
  i2cError : Bool
  /-- `i2c_phase` (R31). -/
  i2cPhase : Phase
  /-- `i2c_dir` (R32). -/
  i2cDir : Dir
  /-- `i2c_len` (R33). -/
  i2cLen : Byte
  /-- `i2c_idx` (R34). -/
  i2cIdx : Byte
  /-- `i2c_to_cnt` (R35). -/
  i2cToCnt : Word
  /-- `i2c_txbuf` (R36). -/
  i2cTxbuf : Memory
  /-- `i2c_txlen` (R36). -/
  i2cTxlen : Byte
  /-- `i2c_rxbuf` (R37). -/
  i2cRxbuf : Memory
  /-- `i2c_rxlen` (R37). -/
  i2cRxlen : Byte
  /-- `i2c_errlog` (R38), each 3-bit code in a byte (20_memory R60). -/
  i2cErrlog : Memory
  /-- `i2c_err_head` (R38). -/
  i2cErrHead : Byte
  /-- `i2c_err_count` (R38). -/
  i2cErrCount : Byte
  /-- `ip_i2c` (R39). -/
  ipI2c : Bool
  /-- `i2c_ev` (R39). -/
  i2cEv : Event
  /-- `i2c_ev_data` (R39). -/
  i2cEvData : Byte
  /-- `ip_tick` (R40). -/
  ipTick : Bool
  /-- `sch_slot` (R41). -/
  schSlot : Slot
  /-- `sch_running` (R42). -/
  schRunning : Bool
  /-- `sch_in_poll` (R43). -/
  schInPoll : Bool
  /-- `gate_held` (R44). -/
  gateHeld : Bool
  /-- `gate_owner` (R45). -/
  gateOwner : Slot
  /-- `trace` (R52). -/
  trace : List TraceEvent
  /-- `wire` (R53). -/
  wire : List WireSym
  /-- The MODEL's own: the responses delivered so far, oldest first (00_scope R13, log 7). -/
  resps : List Response
  /-- The MODEL's own: the labels the environment presents from now on, next first (00_scope R8, R9, log 4). -/
  agenda : List Label
  deriving DecidableEq, Repr

/-- What 10_state R54 leaves unspecified at reset. -/
structure Unspecified where
  frCount : Word
  dlyT0 : Word
  dlyNeed : Word
  txbuf : Memory
  rxbuf : Memory
  errlog : Memory
  deriving DecidableEq, Repr

/-- Power-on reset (10_state R54) under the parameters `c`, with `u` for what R54 leaves unspecified. -/
def State.resetWith (c : Config) (u : Unspecified) : State where
  cfg := c
  tbCount := 0
  tbRun := false
  frCount := u.frCount
  dlyActive := false
  dlyT0 := u.dlyT0
  dlyNeed := u.dlyNeed
  i2cInited := false
  i2cCbEn := 0
  i2cAddr := 0
  i2cBusy := false
  i2cError := false
  i2cPhase := .idle
  i2cDir := .transmit
  i2cLen := 0
  i2cIdx := 0
  i2cToCnt := 0
  i2cTxbuf := u.txbuf
  i2cTxlen := 0
  i2cRxbuf := u.rxbuf
  i2cRxlen := 0
  i2cErrlog := u.errlog
  i2cErrHead := 0
  i2cErrCount := 0
  ipI2c := false
  i2cEv := .none
  i2cEvData := 0
  ipTick := false
  schSlot := 0
  schRunning := false
  schInPoll := false
  gateHeld := false
  gateOwner := 0
  trace := []
  wire := []
  resps := []
  agenda := []

/-- The values `State.reset` names where R54 gives none: zero, and memory with nothing listed
(log 10, 11, 12, DESIGN CHOICE, unsafe). -/
def Unspecified.zero : Unspecified := ⟨0, 0, 0, [], [], []⟩

/-- The machine right after reset (10_state R54), with the default parameters (00_scope R7). -/
def State.reset : State := State.resetWith Config.default Unspecified.zero

end Sys2Proof.Machine
end

