-- ==== Sys2Proof/Machine/Flags.lean ====
section
/-! DEFINITION. The two status flags `i2c_busy` and `i2c_error` (10_state R46): who sets, clears and reads them. There is no
carry, zero, sign or overflow flag. -/

namespace Sys2Proof.Machine

/-- A flag as a bit of a status register (10_state R47). -/
def bit (b : Bool) : BitVec 1 := BitVec.ofBool b

/-- An operation starts: `i2c_busy` is set (10_state R29), `i2c_error` is not touched (41_i2c_transport R126). -/
def State.flagsStart (s : State) : State := { s with i2cBusy := true }

/-- An operation completes: `i2c_busy` is cleared, `i2c_error` stays (42_i2c_bus_fsm R161). -/
def State.flagsDone (s : State) : State := { s with i2cBusy := false }

/-- An operation ends in a fault (42_i2c_bus_fsm R160). -/
def State.flagsFault (s : State) : State := { s with i2cError := true, i2cBusy := false }

/-- Both flags are cleared (41_i2c_transport R121, R123). -/
def State.flagsClear (s : State) : State := { s with i2cBusy := false, i2cError := false }

/-- What `I2C.RESULT` answers: idle and no error (41_i2c_transport R132). -/
def State.succeeded (s : State) : Bool := !s.i2cBusy && !s.i2cError

end Sys2Proof.Machine
end

