-- ==== Sys2Proof/Machine/Operands.lean ====
section
/-! DEFINITION. Operands: the numeric codes of the closed types, the range checks that need no state, and the widenings.
Every operand is zero-extended, none is signed (30_encoding R82). -/

namespace Sys2Proof.Machine

/-- The 3-bit phase number (10_state R31). -/
def Phase.code : Phase → BitVec 3
  | .idle => 0
  | .addr => 1
  | .tx => 2
  | .rx => 3
  | .stop => 4

/-- The direction bit: 0 transmit, 1 receive (10_state R32). -/
def Dir.code : Dir → BitVec 1
  | .transmit => 0
  | .receive => 1

/-- The 3-bit event number (10_state R39). -/
def Event.code : Event → BitVec 3
  | .none => 0
  | .ack => 1
  | .nack => 2
  | .data => 3
  | .stopped => 4
  | .wcol => 5
  | .timeout => 6

/-- The 3-bit fault code, kept in a byte of the history (60_exceptions R215, 20_memory R60). -/
def FaultKind.code : FaultKind → Byte
  | .anack => 1
  | .dnack => 2
  | .wcol => 3
  | .timeout => 4

/-- The callback number k of the output event CB(k) (10_state R52). -/
def Callback.code : Callback → Byte
  | .done => 0
  | .fault k => k.code

/-- The 8-bit status code (60_exceptions R210). -/
def Status.code : Status → Byte
  | .ok => 0x00
  | .illegal => 0x01
  | .length => 0x02
  | .operand => 0x03
  | .state => 0x04
  | .notInit => 0x05
  | .denied => 0x06

/-- The byte on the wire for `AD(a, rw)`, `{a[6:0], rw}` (10_state R53). -/
def addressByte (a : Addr7) (d : Dir) : Byte := a ++ d.code

/-- A check of a precondition: `none` when it holds, else the status it raises. -/
def checkThat (ok : Bool) (e : Status) : Option Status := if ok then none else some e

/-- `imm8[7]` of an address operand must be 0 (30_encoding R82). -/
def addressCheck (a : Byte) : Option Status := checkThat (addressOk a) .operand

/-- The address of an address operand, `imm8[6:0]` (30_encoding R82). -/
def addressOf (a : Byte) : Addr7 := a.extractLsb' 0 7

/-- `1 <= n <= I2C_BUF_LEN` (41_i2c_transport R127). -/
def countCheck (c : Config) (n : Byte) : Option Status := checkThat (countOk c n) .operand

/-- `imm32 < 2^TB_WIDTH` (40_timebase R104). -/
def stampCheck (c : Config) (stamp : Word) : Option Status := checkThat (stampOk c stamp) .operand

/-- The register number is listed (43_scheduler_gate R188). -/
def sregCheck (r : Byte) : Option Status := checkThat (sregOk r) .operand

/-- `zext_32` (00_scope R11). -/
def zext32 {w : Nat} (v : BitVec w) : Word := v.setWidth 32

/-- The low TB_WIDTH bits of a word: a value modulo `2^TB_WIDTH` (40_timebase R113). -/
def tbTrunc (c : Config) (v : Word) : Word := BitVec.ofNat 32 (v.toNat % 2 ^ c.tbWidth)

/-- `dly_need` of `DLY.MS n`: `1000 * n` microseconds (40_timebase R106). -/
def msNeed (n : Half) : Word := 1000 * zext32 n

/-- `dly_need` of `DLY.US n` (40_timebase R107). -/
def usNeed (n : Half) : Word := zext32 n

end Sys2Proof.Machine
end

