-- ==== Sys2Proof/Machine/Ops.lean ====
section
/-! DEFINITION. The shared operations: the byte spaces, responses and rejections, the preconditions, the status registers, the
interrupt requests, and taking an interrupt (`dispatch`) with its two handlers and the callbacks. -/

namespace Sys2Proof.Machine

/-- The outcome of a meaning. -/
abbrev Result := Host.Outcome State Fault Refusal

/-! ### Memory -/

/-- What an index that nothing has written reads as. The spec leaves the contents unspecified (10_state R54); zero is
the model's (log 12, DESIGN CHOICE, unsafe). -/
def Memory.unlisted : Byte := 0

/-- `MemRead` of one byte (00_scope R12). -/
def Memory.read : Memory → Nat → Byte
  | [], _ => Memory.unlisted
  | (a, b) :: m, i => if a = i then b else Memory.read m i

/-- `MemWrite` of one byte (00_scope R12). It keeps the canonical form: a byte equal to what is read anyway is not listed. -/
def Memory.write : Memory → Nat → Byte → Memory
  | [], i, v => if v = Memory.unlisted then [] else [(i, v)]
  | (a, b) :: m, i, v =>
    if i < a then (if v = Memory.unlisted then (a, b) :: m else (i, v) :: (a, b) :: m)
    else if i = a then (if v = Memory.unlisted then m else (i, v) :: m)
    else (a, b) :: Memory.write m i v

/-- The canonical form: indices strictly rising, no listed byte equal to what an unlisted index reads as. -/
def Memory.wf : Memory → Bool
  | [] => true
  | (a, b) :: m => (b != Memory.unlisted) && m.all (fun c => decide (a < c.1)) && Memory.wf m

/-- The capacity of a space in bytes (20_memory R60). -/
def Space.capacity (c : Config) : Space → Nat
  | .txbuf => c.i2cBufLen
  | .rxbuf => c.i2cBufLen
  | .errlog => c.i2cErrlogLen

/-- The contents of a space. -/
def State.space (s : State) : Space → Memory
  | .txbuf => s.i2cTxbuf
  | .rxbuf => s.i2cRxbuf
  | .errlog => s.i2cErrlog

/-- The state with one byte of a space written. -/
def State.withByte (s : State) (sp : Space) (i : Nat) (v : Byte) : State :=
  match sp with
  | .txbuf => { s with i2cTxbuf := s.i2cTxbuf.write i v }
  | .rxbuf => { s with i2cRxbuf := s.i2cRxbuf.write i v }
  | .errlog => { s with i2cErrlog := s.i2cErrlog.write i v }

/-- Read byte `i` of a space and go on with it; an index that does not exist faults (log 13). -/
def loadByte (sp : Space) (i : Nat) (s : State) (k : Byte → Result) : Result :=
  if i < sp.capacity s.cfg then k ((s.space sp).read i) else .fault (.outsideSpace sp i)

/-- Write byte `i` of a space and go on; an index that does not exist faults (log 13). -/
def storeByte (sp : Space) (i : Nat) (v : Byte) (s : State) (k : State → Result) : Result :=
  if i < sp.capacity s.cfg then k (s.withByte sp i v) else .fault (.outsideSpace sp i)

/-! ### Responses, rejections, preconditions -/

/-- `resp <- v`: the response `(OK, v)` is delivered (00_scope R13). -/
def State.respond (s : State) (v : Word) : State := { s with resps := s.resps ++ [⟨.ok, v⟩] }

/-- `raise e`: the response `(e, 0)` is delivered and nothing else changes (00_scope R13, 60_exceptions R213). -/
def State.reject (s : State) (e : Status) : State := { s with resps := s.resps ++ [⟨e, 0⟩] }

/-- The first status raised by a list of checks: the rest are not evaluated (60_exceptions R211). -/
def firstRaised : List (Option Status) → Option Status
  | [] => none
  | some e :: _ => some e
  | none :: cs => firstRaised cs

/-- A command: its checks in the order of 60_exceptions R211, then its effect. -/
def guarded (checks : List (Option Status)) (s : State) (run : Result) : Result :=
  match firstRaised checks with
  | some e => .next (s.reject e)
  | none => run

/-- The requester identity `rq` (43_scheduler_gate R181). -/
def State.requester (s : State) : Slot := if s.schInPoll then s.schSlot else Config.idMain

/-- `Ctx()` (43_scheduler_gate R180). -/
def ctxCheck (s : State) : Option Status := checkThat (!(s.schRunning && !s.schInPoll)) .state

/-- The first half of `I2cPre` (41_i2c_transport R120). -/
def initCheck (s : State) : Option Status := checkThat s.i2cInited .notInit

/-- The second half of `I2cPre`: the gate is free or the requester's own (41_i2c_transport R120). -/
def gateCheck (s : State) : Option Status := checkThat (!(s.gateHeld && s.gateOwner != s.requester)) .denied

/-- No operation is outstanding. -/
def idleCheck (s : State) : Option Status := checkThat (!s.i2cBusy) .state

/-! ### Timebase and delay -/

/-- `tb_count`: the TB_WIDTH bits that exist (10_state R22, log 17). -/
def State.tbVal (s : State) : Word := tbTrunc s.cfg s.tbCount

/-- Microseconds since the hold began, `(fr_count - dly_t0) mod 2^32` (40_timebase R106). -/
def State.dlyElapsed (s : State) : Word := s.frCount - s.dlyT0

/-- The hold ends at the first moment its condition holds: `end` of 40_timebase R106 (log 18). -/
def endHold (s : State) : State :=
  if s.dlyActive && decide (s.dlyNeed.toNat ≤ s.dlyElapsed.toNat) then State.respond { s with dlyActive := false } 0 else s

/-- `begin` of a delay command, and its end where nothing has to be waited for (40_timebase R106). -/
def beginHold (need : Word) (s : State) : State :=
  endHold { s with dlyT0 := s.frCount, dlyNeed := need, dlyActive := true }

/-! ### Scheduler -/

/-- The lowest enabled slot from `lo` on (43_scheduler_gate R193). -/
def lowestEnabled (mask : BitVec 6) (lo : Nat) : Option Nat :=
  (List.range Config.nDev).find? (fun t => decide (lo ≤ t) && mask.getLsbD t)

/-- The lowest enabled slot from `lo` on, else the lowest enabled slot (43_scheduler_gate R193). -/
def slotFrom (mask : BitVec 6) (lo : Nat) : Slot :=
  match lowestEnabled mask lo with
  | some t => BitVec.ofNat 3 t
  | none => BitVec.ofNat 3 ((lowestEnabled mask 0).getD 0)

/-- `NextSlot(s)` (43_scheduler_gate R193). -/
def nextSlot (mask : BitVec 6) (slot : Slot) : Slot := slotFrom mask (slot.toNat + 1)

/-- `FirstSlot` (43_scheduler_gate R193). -/
def firstSlot (mask : BitVec 6) : Slot := slotFrom mask 0

/-! ### Status registers -/

/-- The 32-bit value of a status register (10_state R47); bits not listed are 0. -/
def sregValue (s : State) (r : Byte) : Word :=
  match r.toNat with
  | 0x01 => s.tbVal
  | 0x02 => zext32 (bit s.tbRun)
  | 0x03 => s.frCount
  | 0x10 => zext32 (s.i2cCbEn ++ bit s.i2cInited)
  | 0x11 => zext32 s.i2cAddr
  | 0x12 => zext32 (s.i2cLen ++ s.i2cIdx ++ (0 : BitVec 2) ++ s.i2cDir.code ++ s.i2cPhase.code ++ bit s.i2cError ++ bit s.i2cBusy)
  | 0x13 => s.i2cToCnt
  | 0x14 => zext32 (s.i2cRxlen ++ s.i2cTxlen)
  | 0x15 => zext32 (s.i2cErrHead ++ s.i2cErrCount)
  | 0x20 => zext32 (s.schSlot ++ bit s.schInPoll ++ bit s.schRunning)
  | 0x21 => zext32 (s.gateOwner ++ bit s.gateHeld)
  | _ => 0

/-! ### The transport -/

/-- Symbols driven on or sampled from the bus (00_scope R14). -/
def State.drive (s : State) (syms : List WireSym) : State := { s with wire := s.wire ++ syms }

/-- An output event (00_scope R14). -/
def State.emit (s : State) (e : TraceEvent) : State := { s with trace := s.trace ++ [e] }

/-- `post(I2C, e, d)` (00_scope R15). -/
def State.postI2c (s : State) (e : Event) (d : Byte) : State := { s with i2cEv := e, i2cEvData := d, ipI2c := true }

/-- `post(TICK)` (00_scope R15). -/
def State.postTick (s : State) : State := { s with ipTick := true }

/-- The event latch and its request are cleared (10_state R39). -/
def State.clearI2cRequest (s : State) : State := { s with ipI2c := false, i2cEv := .none, i2cEvData := 0 }

/-- `Collide()` (41_i2c_transport R125). -/
def State.collide (s : State) : State := s.postI2c .wcol 0

/-- The controller idles with nothing left of the last operation: what `I2C.INIT` and `I2C.RESET` share (41_i2c_transport R121, R123). -/
def State.clearOperation (s : State) : State :=
  { s.flagsClear with
    i2cPhase := .idle, i2cDir := .transmit, i2cLen := 0, i2cIdx := 0, i2cToCnt := 0, i2cTxlen := 0, i2cRxlen := 0 }

/-- An operation of `len` bytes starts: what `I2C.STARTTX` and `I2C.STARTRX` share (41_i2c_transport R126, R127). -/
def State.startOperation (s : State) (d : Dir) (len : Byte) : State :=
  { s.flagsStart with i2cDir := d, i2cLen := len, i2cIdx := 0, i2cToCnt := 0, i2cPhase := .addr }.drive [.start, .ad s.i2cAddr d]

/-- A stop condition is driven where one is still owed: mid-transfer (41_i2c_transport R123). -/
def State.owesStop (s : State) : Bool := s.i2cPhase != .idle && s.i2cPhase != .stop

/-- `(i2c_err_head + I2C_ERRLOG_LEN - 1 - i) mod I2C_ERRLOG_LEN`: where the entry of age `i` stands (41_i2c_transport R134). -/
def State.errIndex (s : State) (age : Nat) : Nat := (s.i2cErrHead.toNat + s.cfg.i2cErrlogLen - 1 - age) % s.cfg.i2cErrlogLen

/-- The ring's head moves on and the count saturates (42_i2c_bus_fsm R160). -/
def State.errAdvance (s : State) : State :=
  { s with
    i2cErrHead := BitVec.ofNat 8 ((s.i2cErrHead.toNat + 1) % s.cfg.i2cErrlogLen)
    i2cErrCount := BitVec.ofNat 8 (min (s.i2cErrCount.toNat + 1) s.cfg.i2cErrlogLen) }

/-- `Fault(k)`, the fault callback of class `k` (42_i2c_bus_fsm R160). -/
def faultCallback (k : FaultKind) (s : State) : Result :=
  storeByte .errlog s.i2cErrHead.toNat k.code s fun s =>
    .next (State.emit (State.errAdvance
      { State.flagsFault (if s.i2cPhase != .stop then s.drive [.stop] else s) with i2cPhase := .idle }) (.cb (.fault k)))

/-- `Done()`, the data-complete callback (42_i2c_bus_fsm R161). -/
def doneCallback (s : State) : State := State.emit { s.flagsDone with i2cPhase := .idle } (.cb .done)

/-! ### Taking an interrupt -/

/-- Address acknowledged (42_i2c_bus_fsm R153). -/
def addressAcked (s : State) : Result :=
  match s.i2cDir with
  | .transmit =>
    if s.i2cLen = 0 then .next (State.drive { s with i2cPhase := .stop } [.stop])
    else loadByte .txbuf 0 s fun b => .next (State.drive { s with i2cPhase := .tx } [.sent b])
  | .receive => .next { s with i2cPhase := .rx }

/-- Data byte acknowledged (42_i2c_bus_fsm R155). -/
def byteAcked (s : State) : Result :=
  let idx := s.i2cIdx + 1
  if idx = s.i2cLen then .next (State.drive { s with i2cIdx := idx, i2cPhase := .stop } [.stop])
  else loadByte .txbuf idx.toNat s fun b => .next (State.drive { s with i2cIdx := idx } [.sent b])

/-- Data byte received (42_i2c_bus_fsm R157). -/
def byteReceived (d : Byte) (s : State) : Result :=
  storeByte .rxbuf s.i2cIdx.toNat d s fun s =>
    let idx := s.i2cIdx + 1
    if idx = s.i2cLen then
      .next (State.drive { s with i2cIdx := idx, i2cRxlen := idx, i2cPhase := .stop } [.masterNack, .stop])
    else .next (State.drive { s with i2cIdx := idx, i2cRxlen := idx } [.masterAck])

/-- The arm of `I2cIsr` that a latched event selects in a phase (42_i2c_bus_fsm R152); every combination not listed there
returns without change, as the handler entered in `PH_IDLE` does (R163). -/
def i2cArm (e : Event) (d : Byte) (s : State) : Result :=
  match s.i2cPhase, e with
  | .idle, _ => .next s
  | _, .wcol => faultCallback .wcol s
  | _, .timeout => faultCallback .timeout s
  | .addr, .ack => addressAcked s
  | .tx, .ack => byteAcked s
  | .addr, .nack => faultCallback .anack s
  | .tx, .nack => faultCallback .dnack s
  | .rx, .data => byteReceived d s
  | .stop, .stopped => .next (doneCallback s)
  | _, _ => .next s

/-- `I2cIsr`: take the latched event, clear the request, run one arm (42_i2c_bus_fsm R152). -/
def i2cIsr (s : State) : Result := i2cArm s.i2cEv s.i2cEvData s.clearI2cRequest

/-- `TickIsr` (40_timebase R109): the counter wraps. -/
def tickIsr (s : State) : State := { s with tbCount := tbTrunc s.cfg (s.tbCount + 1), ipTick := false }

/-- `DISPATCH`, the block's trap entry (60_exceptions R205): TICK before I2C (R204). It saves nothing; the handler is one atomic
step that ends by itself, so there is no return from it (R206). With nothing pending it is not enabled and changes nothing (R203). -/
def dispatch (s : State) : Result :=
  if s.ipTick then .next (tickIsr s)
  else if s.ipI2c then i2cIsr s
  else .next s

end Sys2Proof.Machine
end

