-- ==== Sys2Proof/Machine/Bus.lean ====
section
/-! DEFINITION. Unit I2C, bus side: the five responses (42_i2c_bus_fsm R151). An admitted response only latches the event and
requests the interrupt; a response that is not admitted does not occur (log 5). -/

namespace Sys2Proof.Machine

/-- A `BUS(r)` step: enabled when no request is pending and `r` fits the phase, else it does not occur (42_i2c_bus_fsm R151). -/
def busStep (fits : Bool) (e : Event) (d : Byte) (syms : List WireSym) (s : State) : Result :=
  if fits && !s.ipTick && !s.ipI2c then .next ((s.postI2c e d).drive syms) else .next s

/-- `BUS.ACK` and `BUS.NACK` answer the address byte or a transmitted byte (42_i2c_bus_fsm R151). -/
def State.awaitsAck (s : State) : Bool := s.i2cPhase == .addr || s.i2cPhase == .tx

/-- `BUS.ACK` (42_i2c_bus_fsm R151). -/
def execBusAck (s : State) : Result := busStep s.awaitsAck .ack 0 [.ack] s

/-- `BUS.NACK` (42_i2c_bus_fsm R151). -/
def execBusNack (s : State) : Result := busStep s.awaitsAck .nack 0 [.nack] s

/-- `BUS.DATA b` (42_i2c_bus_fsm R151). -/
def execBusData (b : Byte) (s : State) : Result := busStep (s.i2cPhase == .rx) .data b [.received b] s

/-- `BUS.STOPPED` (42_i2c_bus_fsm R151). -/
def execBusStopped (s : State) : Result := busStep (s.i2cPhase == .stop) .stopped 0 [] s

/-- `BUS.COLLISION` (42_i2c_bus_fsm R151). -/
def execBusCollision (s : State) : Result := busStep (s.i2cPhase != .idle) .wcol 0 [] s

end Sys2Proof.Machine
end

