-- ==== Sys2Proof/Machine/Scheduler.lean ====
section
/-! DEFINITION. Unit SCH: the poll scheduler, the status read and the command gate (43_scheduler_gate). -/

namespace Sys2Proof.Machine

/-- `SCH.RUN` (43_scheduler_gate R182). -/
def execSchRun (s : State) : Result :=
  guarded [ctxCheck s, checkThat (!s.schRunning) .state] s
    (.next (State.respond { s with schRunning := true, schSlot := firstSlot s.cfg.schEnableMask, schInPoll := false } 0))

/-- `SCH.RET` (43_scheduler_gate R184). -/
def execSchRet (s : State) : Result :=
  guarded [ctxCheck s, checkThat s.schInPoll .state] s
    (.next (State.respond { s with schInPoll := false, schSlot := nextSlot s.cfg.schEnableMask s.schSlot } 0))

/-- `SYS.RD r` (43_scheduler_gate R188). -/
def execSysRd (r : Byte) (s : State) : Result :=
  guarded [sregCheck r, ctxCheck s] s (.next (s.respond (sregValue s r)))

/-- The requester owns the gate. -/
def State.ownsGate (s : State) : Bool := s.gateHeld && s.gateOwner == s.requester

/-- `GATE.REQ` (43_scheduler_gate R186). -/
def execGateReq (s : State) : Result :=
  guarded [ctxCheck s] s
    (if s.ownsGate then .next (s.respond 1)
     else if !s.gateHeld && !s.i2cBusy then .next (State.respond { s with gateHeld := true, gateOwner := s.requester } 1)
     else .next (s.respond 0))

/-- `GATE.REL` (43_scheduler_gate R187). -/
def execGateRel (s : State) : Result :=
  guarded [ctxCheck s, checkThat (!(s.ownsGate && s.i2cBusy)) .state] s
    (if s.ownsGate then .next (State.respond { s with gateHeld := false } 1) else .next (s.respond 0))

end Sys2Proof.Machine
end

