-- ==== Sys2Proof/Machine/Timebase.lean ====
section
/-! DEFINITION. Unit TB: the timebase and delay commands (40_timebase). -/

namespace Sys2Proof.Machine

/-- `TB.START` (40_timebase R101). -/
def execTbStart (s : State) : Result :=
  guarded [ctxCheck s] s (.next (State.respond { s with tbCount := 0, tbRun := true } 0))

/-- `TB.STOP` (40_timebase R102). -/
def execTbStop (s : State) : Result :=
  guarded [ctxCheck s] s (.next (State.respond { s with tbRun := false } 0))

/-- `TB.NOW` (40_timebase R103). -/
def execTbNow (s : State) : Result :=
  guarded [ctxCheck s] s (.next (s.respond s.tbVal))

/-- `TB.ELAPSED s`: modular subtraction (40_timebase R104). -/
def execTbElapsed (stamp : Word) (s : State) : Result :=
  guarded [stampCheck s.cfg stamp, ctxCheck s] s (.next (s.respond (tbTrunc s.cfg (s.tbCount - stamp))))

/-- `DLY.MS n` (40_timebase R106). -/
def execDlyMs (n : Half) (s : State) : Result :=
  guarded [ctxCheck s] s (.next (beginHold (msNeed n) s))

/-- `DLY.US n` (40_timebase R107). -/
def execDlyUs (n : Half) (s : State) : Result :=
  guarded [ctxCheck s] s (.next (beginHold (usNeed n) s))

end Sys2Proof.Machine
end

