-- ==== Sys2Proof/Machine/Transport.lean ====
section
/-! DEFINITION. Unit I2C, host side: the transport commands (41_i2c_transport). -/

namespace Sys2Proof.Machine

/-- `I2C.INIT a` (41_i2c_transport R121). -/
def execI2cInit (a : Byte) (s : State) : Result :=
  guarded [addressCheck a, ctxCheck s, gateCheck s, checkThat (!s.i2cInited) .state] s
    (.next (State.respond
      { s.clearOperation with
        i2cInited := true, i2cCbEn := 0b11111, i2cAddr := addressOf a, i2cErrHead := 0, i2cErrCount := 0 } 0))

/-- `I2C.SETADDR a` (41_i2c_transport R122). -/
def execI2cSetaddr (a : Byte) (s : State) : Result :=
  guarded [addressCheck a, ctxCheck s, initCheck s, gateCheck s, idleCheck s] s
    (.next (State.respond { s with i2cAddr := addressOf a } 0))

/-- `I2C.RESET` (41_i2c_transport R123). -/
def execI2cReset (s : State) : Result :=
  guarded [ctxCheck s, initCheck s, gateCheck s] s
    (.next (State.respond (State.clearI2cRequest (State.clearOperation (if s.owesStop then s.drive [.stop] else s))) 0))

/-- `I2C.PUSH b` (41_i2c_transport R124). -/
def execI2cPush (b : Byte) (s : State) : Result :=
  guarded [ctxCheck s, initCheck s, gateCheck s,
      checkThat (s.i2cBusy || decide (s.i2cTxlen.toNat < s.cfg.i2cBufLen)) .state] s
    (if s.i2cBusy then .next (s.collide.respond 0)
     else storeByte .txbuf s.i2cTxlen.toNat b s fun s => .next (State.respond { s with i2cTxlen := s.i2cTxlen + 1 } 1))

/-- `I2C.STARTTX` (41_i2c_transport R126). -/
def execI2cStarttx (s : State) : Result :=
  guarded [ctxCheck s, initCheck s, gateCheck s] s
    (if s.i2cBusy then .next (s.collide.respond 0)
     else .next ((s.startOperation .transmit s.i2cTxlen).respond 1))

/-- `I2C.STARTRX n` (41_i2c_transport R127). -/
def execI2cStartrx (n : Byte) (s : State) : Result :=
  guarded [countCheck s.cfg n, ctxCheck s, initCheck s, gateCheck s] s
    (if s.i2cBusy then .next (s.collide.respond 0)
     else .next (State.respond { s.startOperation .receive n with i2cRxlen := 0 } 1))

/-- One turn of the wait loop counted, the timeout posted when the bound is reached (41_i2c_transport R131). -/
def State.countWait (s : State) : State :=
  let cnt := s.i2cToCnt + 1
  if cnt.toNat = s.cfg.i2cTimeoutCycles then State.postI2c { s with i2cToCnt := cnt } .timeout 0
  else { s with i2cToCnt := cnt }

/-- `I2C.WAIT` (41_i2c_transport R131). -/
def execI2cWait (s : State) : Result :=
  guarded [ctxCheck s, initCheck s, gateCheck s] s
    (if s.i2cBusy then .next (s.countWait.respond 1) else .next (s.respond 0))

/-- `I2C.RESULT` (41_i2c_transport R132). -/
def execI2cResult (s : State) : Result :=
  guarded [ctxCheck s, initCheck s] s (.next (s.respond (zext32 (bit s.succeeded))))

/-- `I2C.RXRD i` (41_i2c_transport R133). -/
def execI2cRxrd (i : Byte) (s : State) : Result :=
  guarded [ctxCheck s, initCheck s, checkThat (decide (i.toNat < s.i2cRxlen.toNat)) .operand] s
    (loadByte .rxbuf i.toNat s fun b => .next (s.respond (zext32 b)))

/-- `I2C.ERRRD i` (41_i2c_transport R134). -/
def execI2cErrrd (i : Byte) (s : State) : Result :=
  guarded [ctxCheck s, initCheck s, checkThat (decide (i.toNat < s.i2cErrCount.toNat)) .operand] s
    (loadByte .errlog (s.errIndex i.toNat) s fun b => .next (s.respond (zext32 b)))

end Sys2Proof.Machine
end

