-- ==== Sys2Proof/Machine/Dispatch.lean ====
section
/-! DEFINITION. `exec`: one arm per instruction, each one call of its meaning. -/

namespace Sys2Proof.Machine

def exec (i : Instr) (s : State) : Host.Outcome State Fault Refusal :=
  match i with
  | .schRun => Sys2Proof.Machine.execSchRun s
  | .schRet => Sys2Proof.Machine.execSchRet s
  | .sysRd r => Sys2Proof.Machine.execSysRd r s
  | .tbStart => Sys2Proof.Machine.execTbStart s
  | .tbStop => Sys2Proof.Machine.execTbStop s
  | .tbNow => Sys2Proof.Machine.execTbNow s
  | .tbElapsed stamp => Sys2Proof.Machine.execTbElapsed stamp s
  | .dlyMs n => Sys2Proof.Machine.execDlyMs n s
  | .dlyUs n => Sys2Proof.Machine.execDlyUs n s
  | .i2cInit a => Sys2Proof.Machine.execI2cInit a s
  | .i2cSetaddr a => Sys2Proof.Machine.execI2cSetaddr a s
  | .i2cReset => Sys2Proof.Machine.execI2cReset s
  | .i2cPush b => Sys2Proof.Machine.execI2cPush b s
  | .i2cStarttx => Sys2Proof.Machine.execI2cStarttx s
  | .i2cStartrx n => Sys2Proof.Machine.execI2cStartrx n s
  | .i2cWait => Sys2Proof.Machine.execI2cWait s
  | .i2cResult => Sys2Proof.Machine.execI2cResult s
  | .i2cRxrd x => Sys2Proof.Machine.execI2cRxrd x s
  | .i2cErrrd x => Sys2Proof.Machine.execI2cErrrd x s
  | .gateReq => Sys2Proof.Machine.execGateReq s
  | .gateRel => Sys2Proof.Machine.execGateRel s
  | .busAck => Sys2Proof.Machine.execBusAck s
  | .busNack => Sys2Proof.Machine.execBusNack s
  | .busData b => Sys2Proof.Machine.execBusData b s
  | .busStopped => Sys2Proof.Machine.execBusStopped s
  | .busCollision => Sys2Proof.Machine.execBusCollision s

end Sys2Proof.Machine
end

