-- ==== Sys2Proof/Machine/Environment.lean ====
section
/-! DEFINITION. The environment's steps that carry no bytes (`TICK`, `USTICK`, `POLL`), and which label moves next. -/

namespace Sys2Proof.Machine

/-- `TICK` (40_timebase R108). -/
def tickStep (s : State) : State := if s.tbRun then s.postTick else s

/-- `USTICK` (40_timebase R110); a delay hold whose condition now holds ends at this step (R106). -/
def usTickStep (s : State) : State := endHold { s with frCount := s.frCount + 1 }

/-- `POLL` (43_scheduler_gate R183). Where it is not enabled it does not occur (log 5). -/
def pollStep (s : State) : State :=
  if s.schRunning && !s.schInPoll then State.emit { s with schInPoll := true } (.poll s.schSlot) else s

/-- The label that moves next, and what is left of the agenda. While a delay hold is open the HOST has no step
(60_exceptions R203): its packets wait and the first label of another agent moves (log 6). -/
def nextLabel (hold : Bool) : List Label → Option (Label × List Label)
  | [] => none
  | l :: ls =>
    if hold && l.isCmd then
      match nextLabel hold ls with
      | some (l', ls') => some (l', l :: ls')
      | none => none
    else some (l, ls)

end Sys2Proof.Machine
end

