-- ==== Sys2Proof/Machine/Perform.lean ====
section
/-! DEFINITION. What a label does: packets and records are decoded and run, the other labels are the environment's own steps. -/

namespace Sys2Proof.Machine

/-- The status a packet that does not decode is rejected with (30_encoding R84). -/
def decodeStatus : DecodeError → Status
  | .illegal => .illegal
  | .length => .length
  | .notARecord => .illegal
  | .noBytes => .illegal

/-- `CMD(pkt)` (00_scope R8): decode (30_encoding R84), then the command's rule. -/
def performPacket (p : Packet) (s : State) : Result :=
  match decode (.cmd p) with
  | .ok i => exec i s
  | .error e => .next (s.reject (decodeStatus e))

/-- `BUS(r)` (42_i2c_bus_fsm R151); two bytes that are none of the five records are no step of the spec (log 14). -/
def performRecord (r : Record) (s : State) : Result :=
  match decode (.bus r) with
  | .ok i => exec i s
  | .error _ => .refused (.notABusRecord r)

/-- A `TICK` that coincides with what the bus does: both posts (60_exceptions R208, log 19). -/
def alsoTick : Result → Result
  | .next s => .next (tickStep s)
  | .fault f => .fault f
  | .refused r => .refused r

/-- One step of an environment agent or of the HOST (00_scope R8). -/
def perform (l : Label) (s : State) : Result :=
  match l with
  | .cmd p => performPacket p s
  | .poll => .next (pollStep s)
  | .tick => .next (tickStep s)
  | .usTick => .next (usTickStep s)
  | .bus r => performRecord r s
  | .tickBus r => alsoTick (performRecord r s)

/-- One step of the machine: a pending request is served before anything else (60_exceptions R203), else the next label moves;
with no label to come nothing happens (log 4). -/
def stepOnce (s : State) : Result :=
  if s.ipTick || s.ipI2c then dispatch s
  else match nextLabel s.dlyActive s.agenda with
    | some (l, rest) => perform l { s with agenda := rest }
    | none => .next s

/-- The state in which the next step is the given label: it is first in the agenda and no request is pending (60_exceptions
R203); for a packet no delay hold is open either, since the HOST has no step in one (log 8). -/
def State.presenting (s : State) (l : Label) : State :=
  { s with agenda := l :: s.agenda, ipTick := false, ipI2c := false, dlyActive := s.dlyActive && !l.isCmd }

end Sys2Proof.Machine
end

