-- ==== Sys2Proof/Machine/Step.lean ====
section
/-! DEFINITION. The step of the machine, and how an instruction is placed where the next step takes it from. -/

namespace Sys2Proof.Machine

/-- One step (00_scope R8, 60_exceptions R203). -/
def step (s : State) : Host.Outcome State Fault Refusal := stepOnce s

/-- `s` with the instruction of a table word presented at its port as the next label (log 8, log 9). -/
def State.withFetchWord (s : State) (nbits w : Nat) : State := s.presenting (labelOfWord nbits w)

end Sys2Proof.Machine
end

