-- ==== Sys2Proof/Machine/Pseudo.lean ====
section
/-! DEFINITION. The pseudo-instructions (30_encoding R89) as clients of the block: from the responses to its own commands a client
decides which command it issues next, or that it has ended, and how. The block sees only the commands, and whatever agents move
between two of them. Beside them the numbers of the address map (20_memory R67, R68) and of the poll slots (10_state R41), which
the block carries and never interprets. -/

namespace Sys2Proof.Machine

/-! ### Clients -/

/-- Where a client stands after the responses to its commands so far. -/
inductive Progress (α : Type) where
  /-- It issues this command next. -/
  | issue (i : Instr)
  /-- It has ended in success with a result; the responses left over answer later commands. -/
  | success (a : α) (rest : List Response)
  /-- It has ended in failure; the responses left over answer later commands. -/
  | failure (rest : List Response)
  deriving DecidableEq, Repr

/-- A client: what it does after each list of responses to its own commands, oldest first. -/
abbrev Client (α : Type) := List Response → Progress α

/-- Success at once, with no command. -/
def give {α : Type} (a : α) : Client α := fun rs => .success a rs

/-- Failure at once, with no command. -/
def giveUp {α : Type} : Client α := fun rs => .failure rs

/-- One client and, where it ended in success, a second one made from its result. -/
def andThen {α β : Type} (c : Client α) (next : α → Client β) : Client β := fun rs =>
  match c rs with
  | .issue i => .issue i
  | .success a rest => next a rest
  | .failure rest => .failure rest

/-- One client and, whether it succeeded or failed, a second one after it; the first one's result stands. -/
def andAlways {α : Type} (c : Client α) (last : Client Unit) : Client α := fun rs =>
  match c rs with
  | .issue i => .issue i
  | .success a rest => andThen last (fun _ => give a) rest
  | .failure rest => andThen last (fun _ => giveUp) rest

/-- One command: its response value, or failure where its status is not `OK` (41_i2c_transport, section 4). -/
def command (i : Instr) : Client Word
  | [] => .issue i
  | r :: rest => if r.st = .ok then .success r.val rest else .failure rest

/-- Commands one after another, up to the first whose status is not `OK`. -/
def commands : List Instr → Client Unit
  | [] => give ()
  | i :: is => andThen (command i) fun _ => commands is

/-- The client's next command, if it has one, presented to the block as the next label (log 24). -/
def State.presentNext {α : Type} (s : State) (c : Client α) (own : List Response) : State :=
  match c own with
  | .issue i => { s with agenda := encode i :: s.agenda }
  | .success _ _ => s
  | .failure _ => s

/-! ### The pseudo-instructions of 30_encoding R89 -/

/-- The client's comparison in `EXPIRED s, th`, on the value of `TB.ELAPSED s` (40_timebase R105). -/
def expired (elapsed threshold : Word) : Bool := decide (threshold.toNat ≤ elapsed.toNat)

/-- `EXPIRED s, th` (40_timebase R105). -/
def expiredCheck (stamp threshold : Word) : Client Bool :=
  andThen (command (.tbElapsed stamp)) fun elapsed => give (expired elapsed threshold)

/-- `WAITDONE` goes on with one more `I2C.WAIT` exactly when the last one answered 1 (41_i2c_transport R135). -/
def waitsAgain (r : Response) : Bool := r.st == .ok && r.val == 1

/-- `WAITDONE`: the loop, as many turns as the block answers 1 (41_i2c_transport R135). -/
def waitDone : Client Unit
  | [] => .issue .i2cWait
  | r :: rest => if waitsAgain r then waitDone rest else if r.st = .ok then .success () rest else .failure rest

/-- The end of `TRANSMIT` and of `RECEIVE`: the value 1 of `I2C.RESULT` is success, 0 is failure (41_i2c_transport R136, R137). -/
def resultCheck : Client Unit :=
  andThen (command .i2cResult) fun v => if v = 1 then give () else giveUp

/-- `TRANSMIT a, bs` up to its wait loop: steps (a) to (c) (41_i2c_transport R136). -/
def transmitStart (a : Byte) (bs : List Byte) : List Instr :=
  [.i2cSetaddr a, .i2cReset] ++ bs.map .i2cPush ++ [.i2cStarttx]

/-- `TRANSMIT a, bs` (41_i2c_transport R136). -/
def transmit (a : Byte) (bs : List Byte) : Client Unit :=
  andThen (commands (transmitStart a bs)) fun _ => andThen waitDone fun _ => resultCheck

/-- `RECEIVE a, n` up to its wait loop (41_i2c_transport R137). -/
def receiveStart (a n : Byte) : List Instr := [.i2cSetaddr a, .i2cReset, .i2cStartrx n]

/-- `I2C.RXRD` of each index, in order, and the bytes they answer. -/
def readBytes : List Nat → Client (List Byte)
  | [] => give []
  | x :: xs =>
    andThen (command (.i2cRxrd (BitVec.ofNat 8 x))) fun v => andThen (readBytes xs) fun bs => give (v.setWidth 8 :: bs)

/-- `RECEIVE a, n`: the bytes are read only where `I2C.RESULT` told success (41_i2c_transport R137). -/
def receive (a n : Byte) : Client (List Byte) :=
  andThen (commands (receiveStart a n)) fun _ => andThen waitDone fun _ => andThen resultCheck fun _ =>
    readBytes (List.range n.toNat)

/-- `REGWRITE a, reg, ds` (41_i2c_transport R138). -/
def regwrite (a reg : Byte) (ds : List Byte) : Client Unit := transmit a (reg :: ds)

/-- `REGREAD a, reg, n`: the second operation is issued only if the first succeeded (41_i2c_transport R139). -/
def regread (a reg n : Byte) : Client (List Byte) := andThen (transmit a [reg]) fun _ => receive a n

/-- The transport pseudo-instructions, of which `GATED` takes a list (43_scheduler_gate R190). -/
inductive TransportOp where
  | waitDone
  | transmit (a : Byte) (bs : List Byte)
  | receive (a n : Byte)
  | regwrite (a reg : Byte) (ds : List Byte)
  | regread (a reg n : Byte)
  deriving DecidableEq, Repr

/-- The lengths the pseudo-instructions admit (41_i2c_transport R136 to R139). -/
def TransportOp.wf (c : Config) : TransportOp → Bool
  | .waitDone => true
  | .transmit a bs => addressOk a && decide (bs.length ≤ c.i2cBufLen)
  | .receive a n => addressOk a && countOk c n
  | .regwrite a _ ds => addressOk a && decide (1 + ds.length ≤ c.i2cBufLen)
  | .regread a _ n => addressOk a && countOk c n

/-- One transport pseudo-instruction, with the bytes it received. -/
def TransportOp.client : TransportOp → Client (List Byte)
  | .waitDone => andThen Machine.waitDone fun _ => give []
  | .transmit a bs => andThen (Machine.transmit a bs) fun _ => give []
  | .receive a n => Machine.receive a n
  | .regwrite a reg ds => andThen (Machine.regwrite a reg ds) fun _ => give []
  | .regread a reg n => Machine.regread a reg n

/-- Operations in order, up to the first that fails, with the given commands between two of them; the bytes of each. -/
def inSequence (between : List Instr) : List TransportOp → Client (List (List Byte))
  | [] => give []
  | [op] => andThen op.client fun bs => give [bs]
  | op :: op' :: ops =>
    andThen op.client fun bs => andThen (commands between) fun _ => andThen (inSequence between (op' :: ops)) fun bss =>
      give (bs :: bss)

/-- `GATE.REQ`; only where it answered 1 the operations, then `GATE.REL`, whether they succeeded or the first that failed stopped
them; a denial is failure, to be retried on a later poll (43_scheduler_gate R190, R187). -/
def gatedWith (between : List Instr) (seq : List TransportOp) : Client (List (List Byte)) :=
  andThen (command .gateReq) fun v =>
    if v = 1 then andAlways (inSequence between seq) (commands [.gateRel]) else giveUp

/-- `GATED seq` within one poll (43_scheduler_gate R190). -/
def gated (seq : List TransportOp) : Client (List (List Byte)) := gatedWith [] seq

/-- `GATED seq` spread over polls: `SCH.RET` after each operation but the last, the gate kept (43_scheduler_gate R190). -/
def gatedOverPolls (seq : List TransportOp) : Client (List (List Byte)) := gatedWith [.schRet] seq

/-! ### Boot, and commands with nothing between them -/

/-- What `main` does at boot, as far as the block needs it (70_reset_and_hazards R232). -/
def bootSequence (a : Byte) : List Instr := [.tbStart, .i2cInit a, .schRun]

/-- The last response was `OK`, or none was delivered yet. -/
def State.lastOk (s : State) : Bool :=
  match s.resps.getLast? with
  | some r => r.st == .ok
  | none => true

/-- Commands issued one after another with no environment step between, up to the first whose status is not `OK`
(41_i2c_transport, section 4). -/
def issueAll : List Instr → State → Result
  | [], s => .next s
  | i :: is, s =>
    match exec i s with
    | .next t => if t.lastOk then issueAll is t else .next t
    | .fault f => .fault f
    | .refused r => .refused r

/-! ### Numbers the block carries -/

/-- The RTC's bus address (20_memory R67). -/
def rtcAddress : Addr7 := 0x68

/-- The expander's bus address, `0x20 | (A2,A1,A0)` (20_memory R67). -/
def expanderAddress (a : BitVec 3) : Addr7 := 0x20 ||| a.setWidth 7

/-- The DS3231 registers: first address and how many (20_memory R68). -/
def rtcRegisters : List (String × Byte × Nat) :=
  [("time", 0x00, 7), ("alarm1", 0x07, 4), ("alarm2", 0x0B, 3), ("control", 0x0E, 1), ("status", 0x0F, 1),
   ("aging offset", 0x10, 1), ("temperature", 0x11, 2)]

/-- The clients by poll slot (10_state R41). -/
def slotNames : List String := ["RTC", "LCD", "BME280", "DHT11", "SOIL", "KEYPAD"]

end Sys2Proof.Machine
end

