-- ==== Sys2Proof/Safety.lean ====
section
/-! DEFINITION. The terms the claims use: when a command may run, which status a command is rejected with (60_exceptions R211,
R212), what holds in every reachable state (10_state R49), the grammar of the wire (42_i2c_bus_fsm R164), the quiescent point
(70_reset_and_hazards R250). Written from the spec, beside the meanings and not from them. -/

namespace Sys2Proof.Machine

/-! ### When a command may run -/

/-- The context check passes (43_scheduler_gate R180). -/
abbrev State.ctxOpen (s : State) : Prop := ¬(s.schRunning = true ∧ s.schInPoll = false)

/-- The gate does not keep the requester out (41_i2c_transport R120). -/
abbrev State.gateOpen (s : State) : Prop := ¬(s.gateHeld = true ∧ s.gateOwner ≠ s.requester)

/-- No interrupt request is pending. -/
abbrev State.quiet (s : State) : Prop := s.ipTick = false ∧ s.ipI2c = false

/-- The response `(st, val)` is delivered and nothing else changes. -/
abbrev State.answer (s : State) (st : Status) (val : Word) : State := { s with resps := s.resps ++ [⟨st, val⟩] }

/-- The commands `I2cPre` asks `i2c_inited = 1` of (41_i2c_transport R120). -/
def needsInit : Instr → Bool
  | .i2cSetaddr _ | .i2cReset | .i2cPush _ | .i2cStarttx | .i2cStartrx _ | .i2cWait | .i2cResult | .i2cRxrd _
  | .i2cErrrd _ => true
  | .i2cInit _ | .schRun | .schRet | .sysRd _ | .tbStart | .tbStop | .tbNow | .tbElapsed _ | .dlyMs _ | .dlyUs _
  | .gateReq | .gateRel | .busAck | .busNack | .busData _ | .busStopped | .busCollision => false

/-- The commands the gate reserves to its owner (41_i2c_transport R120). -/
def isGated : Instr → Bool
  | .i2cInit _ | .i2cSetaddr _ | .i2cReset | .i2cPush _ | .i2cStarttx | .i2cStartrx _ | .i2cWait => true
  | .i2cResult | .i2cRxrd _ | .i2cErrrd _ | .schRun | .schRet | .sysRd _ | .tbStart | .tbStop | .tbNow | .tbElapsed _
  | .dlyMs _ | .dlyUs _ | .gateReq | .gateRel | .busAck | .busNack | .busData _ | .busStopped | .busCollision => false

/-- The command's own check, line 7 of 60_exceptions R211: the status it raises and when. -/
def ownRejection (i : Instr) (s : State) : Option Status :=
  match i with
  | .schRun => if s.schRunning then some .state else none
  | .schRet => if s.schInPoll then none else some .state
  | .i2cInit _ => if s.i2cInited then some .state else none
  | .i2cSetaddr _ => if s.i2cBusy then some .state else none
  | .i2cPush _ => if s.i2cBusy = false ∧ s.cfg.i2cBufLen ≤ s.i2cTxlen.toNat then some .state else none
  | .i2cRxrd x => if x.toNat < s.i2cRxlen.toNat then none else some .operand
  | .i2cErrrd x => if x.toNat < s.i2cErrCount.toNat then none else some .operand
  | .gateRel => if s.gateHeld = true ∧ s.gateOwner = s.requester ∧ s.i2cBusy = true then some .state else none
  | .sysRd _ | .tbStart | .tbStop | .tbNow | .tbElapsed _ | .dlyMs _ | .dlyUs _ | .i2cReset | .i2cStarttx | .i2cStartrx _
  | .i2cWait | .i2cResult | .gateReq | .busAck | .busNack | .busData _ | .busStopped | .busCollision => none

/-- The status a decoded command is rejected with, lines 3 to 7 of 60_exceptions R211 in order. -/
def rejection (i : Instr) (s : State) : Option Status :=
  if i.wf s.cfg = false then some .operand
  else if ¬s.ctxOpen then some .state
  else if needsInit i = true ∧ s.i2cInited = false then some .notInit
  else if isGated i = true ∧ ¬s.gateOpen then some .denied
  else ownRejection i s

/-- A command is rejected exactly as 60_exceptions R211 and R212 say, and then changes nothing (R213). -/
def RejectsAsTabled (i : Instr) : Prop :=
  ∀ (s : State) (e : Status), rejection i s = some e → exec i s = .next (s.answer e 0)

/-- Format F0: the opcode alone; any other length is `E_LENGTH` (30_encoding R81, R84). -/
def EncodedF0 (op : Byte) (i : Instr) : Prop :=
  ∀ operand : List Byte, decode (.cmd ⟨op, operand⟩) = if operand = [] then .ok i else .error .length

/-- Format F1: one operand byte (30_encoding R81, R84). -/
def EncodedF1 (op : Byte) (mk : Byte → Instr) : Prop :=
  (∀ b : Byte, decode (.cmd ⟨op, [b]⟩) = .ok (mk b)) ∧
  ∀ operand : List Byte, operand.length ≠ 1 → decode (.cmd ⟨op, operand⟩) = .error .length

/-- Format F2: `imm16`, low byte first (30_encoding R81, R82, R84). -/
def EncodedF2 (op : Byte) (mk : Half → Instr) : Prop :=
  (∀ b0 b1 : Byte, decode (.cmd ⟨op, [b0, b1]⟩) = .ok (mk (BitVec.ofNat 16 (b0.toNat + 256 * b1.toNat)))) ∧
  ∀ operand : List Byte, operand.length ≠ 2 → decode (.cmd ⟨op, operand⟩) = .error .length

/-- Format F4: `imm32`, low byte first (30_encoding R81, R82, R84). -/
def EncodedF4 (op : Byte) (mk : Word → Instr) : Prop :=
  (∀ b0 b1 b2 b3 : Byte, decode (.cmd ⟨op, [b0, b1, b2, b3]⟩) =
    .ok (mk (BitVec.ofNat 32 (b0.toNat + 2 ^ 8 * b1.toNat + 2 ^ 16 * b2.toNat + 2 ^ 24 * b3.toNat)))) ∧
  ∀ operand : List Byte, operand.length ≠ 4 → decode (.cmd ⟨op, operand⟩) = .error .length

/-! ### What holds in every reachable state -/

/-- A space's contents are canonical and lie inside its capacity. -/
def Memory.fits (cap : Nat) (m : Memory) : Prop := m.wf = true ∧ ∀ c ∈ m, c.1 < cap

/-- What the phase says of the operation's counters (42_i2c_bus_fsm R150, 10_state R33, R34, R36, R37). -/
def State.phaseInv (s : State) : Prop :=
  match s.i2cPhase with
  | .idle => True
  | .addr => s.i2cIdx = 0 ∧ (s.i2cDir = .transmit → s.i2cLen = s.i2cTxlen) ∧
      (s.i2cDir = .receive → 1 ≤ s.i2cLen.toNat ∧ s.i2cRxlen = 0)
  | .tx => s.i2cDir = .transmit ∧ s.i2cIdx.toNat < s.i2cLen.toNat ∧ s.i2cLen = s.i2cTxlen
  | .rx => s.i2cDir = .receive ∧ s.i2cIdx.toNat < s.i2cLen.toNat ∧ s.i2cRxlen = s.i2cIdx
  | .stop => s.i2cIdx = s.i2cLen

/-- The latched event is one that the phase admits (42_i2c_bus_fsm R151, R163). -/
def eventFits (p : Phase) : Event → Prop
  | .none => False
  | .ack | .nack => p = .addr ∨ p = .tx
  | .data => p = .rx
  | .stopped => p = .stop
  | .wcol | .timeout => p ≠ .idle

/-- The timebase's part of the invariant (10_state R22, R25). -/
structure State.TimebaseInv (s : State) : Prop where
  count : s.tbCount.toNat < 2 ^ s.cfg.tbWidth
  hold : s.dlyActive = true → s.dlyElapsed.toNat < s.dlyNeed.toNat
  need : s.dlyActive = true → s.dlyNeed.toNat ≤ 65535000

/-- The transport's part (10_state R26 to R39, R49). -/
structure State.TransportInv (s : State) : Prop where
  callbacks : s.i2cCbEn = if s.i2cInited then 0b11111 else 0
  busyPhase : s.i2cBusy = true ↔ s.i2cPhase ≠ .idle
  busyInited : s.i2cBusy = true → s.i2cInited = true
  idxLen : s.i2cIdx.toNat ≤ s.i2cLen.toNat
  lenCap : s.i2cLen.toNat ≤ s.cfg.i2cBufLen
  txCap : s.i2cTxlen.toNat ≤ s.cfg.i2cBufLen
  rxCap : s.i2cRxlen.toNat ≤ s.cfg.i2cBufLen
  phase : s.phaseInv
  toBound : s.i2cToCnt.toNat ≤ s.cfg.i2cTimeoutCycles
  toPending : s.i2cBusy = true → s.i2cToCnt.toNat = s.cfg.i2cTimeoutCycles → s.ipI2c = true ∧ s.i2cEv = .timeout
  request : if s.ipI2c then eventFits s.i2cPhase s.i2cEv else s.i2cEv = .none
  eventData : s.i2cEv ≠ .data → s.i2cEvData = 0
  errCount : s.i2cErrCount.toNat ≤ s.cfg.i2cErrlogLen
  errHead : s.i2cErrHead.toNat < s.cfg.i2cErrlogLen
  errCodes : ∀ age < s.i2cErrCount.toNat,
    1 ≤ (s.i2cErrlog.read (s.errIndex age)).toNat ∧ (s.i2cErrlog.read (s.errIndex age)).toNat ≤ 4
  txbuf : Memory.fits s.cfg.i2cBufLen s.i2cTxbuf
  rxbuf : Memory.fits s.cfg.i2cBufLen s.i2cRxbuf
  errlog : Memory.fits s.cfg.i2cErrlogLen s.i2cErrlog

/-- The scheduler's and the gate's part (10_state R41 to R45, R49). -/
structure State.SchedulerInv (s : State) : Prop where
  poll : s.schInPoll = true → s.schRunning = true
  enabled : s.schRunning = true → s.cfg.schEnableMask.getLsbD s.schSlot.toNat = true
  slot : s.schSlot.toNat < Config.nDev
  owner : s.gateOwner ≠ 6

/-- What holds in every reachable state. -/
structure State.Inv (s : State) : Prop where
  cfg : s.cfg.wf
  timebase : s.TimebaseInv
  transport : s.TransportInv
  scheduler : s.SchedulerInv

/-- The eight clauses of 10_state R49: (d) in a state with no request pending, the others in every state. -/
structure State.R49 (s : State) : Prop where
  a : s.i2cBusy = true ↔ s.i2cPhase ≠ .idle
  b : s.i2cBusy = true → s.i2cInited = true
  c : s.i2cIdx.toNat ≤ s.i2cLen.toNat ∧ s.i2cLen.toNat ≤ s.cfg.i2cBufLen
  d : s.quiet → s.i2cBusy = true → s.i2cToCnt.toNat < s.cfg.i2cTimeoutCycles
  e : s.i2cErrCount.toNat ≤ s.cfg.i2cErrlogLen ∧ s.i2cErrHead.toNat < s.cfg.i2cErrlogLen
  f : s.schInPoll = true → s.schRunning = true
  g : s.schRunning = true → s.cfg.schEnableMask.getLsbD s.schSlot.toNat = true
  h : s.gateHeld = true → s.gateOwner.toNat ≤ 5 ∨ s.gateOwner.toNat = 7

/-- What reset leaves unspecified lies inside the spaces. -/
def Unspecified.fits (c : Config) (u : Unspecified) : Prop :=
  Memory.fits c.i2cBufLen u.txbuf ∧ Memory.fits c.i2cBufLen u.rxbuf ∧ Memory.fits c.i2cErrlogLen u.errlog

/-- The states a run from power-on reaches, under any agenda of the environment (00_scope R8, R9). -/
inductive Reachable (c : Config) (u : Unspecified) : State → Prop where
  | reset (labels : List Label) : Reachable c u { State.resetWith c u with agenda := labels }
  | step {s t : State} : Reachable c u s → Machine.step s = .next t → Reachable c u t

/-! ### The wire -/

/-- Where a sentence of the grammar of 42_i2c_bus_fsm R164 stands. -/
inductive WirePos where
  /-- Between two sentences. -/
  | free
  /-- After `S`. -/
  | started
  /-- After `AD(a, d)`. -/
  | addressed (d : Dir)
  /-- After `A`, or after `MA`: the next byte may follow. -/
  | ready (d : Dir)
  /-- After `W(b)`. -/
  | byteSent
  /-- After `R(b)`. -/
  | byteGot
  /-- After `N` or `MN`: only `P` may follow. -/
  | closing
  deriving DecidableEq, Repr

/-- One symbol of the grammar; `P` may end a sentence after any symbol (42_i2c_bus_fsm R164). -/
def WirePos.next : WirePos → WireSym → Option WirePos
  | .free, .start => some .started
  | .free, _ => none
  | _, .stop => some .free
  | .started, .ad _ d => some (.addressed d)
  | .addressed d, .ack => some (.ready d)
  | .addressed _, .nack => some .closing
  | .ready .transmit, .sent _ => some .byteSent
  | .byteSent, .ack => some (.ready .transmit)
  | .byteSent, .nack => some .closing
  | .ready .receive, .received _ => some .byteGot
  | .byteGot, .masterAck => some (.ready .receive)
  | .byteGot, .masterNack => some .closing
  | _, _ => none

/-- Where the wire history stands in the grammar from a position on; `none` where it is no sequence of sentences. -/
def wireFrom : Option WirePos → List WireSym → Option WirePos
  | p, [] => p
  | none, _ :: _ => none
  | some p, w :: ws => wireFrom (p.next w) ws

/-- Where the wire history stands in the grammar. -/
def wirePos (w : List WireSym) : Option WirePos := wireFrom (some .free) w

/-- Where the controller's phase and its latched event say that the wire stands. -/
def State.wireWanted (s : State) : WirePos :=
  match s.i2cPhase, s.i2cEv with
  | .idle, _ => .free
  | .stop, _ => .free
  | .addr, .ack => .ready s.i2cDir
  | .addr, .nack => .closing
  | .addr, _ => .addressed s.i2cDir
  | .tx, .ack => .ready .transmit
  | .tx, .nack => .closing
  | .tx, _ => .byteSent
  | .rx, .data => .byteGot
  | .rx, _ => .ready .receive

/-- The wire history is a sequence of sentences of the grammar, the last one as far as the phase says. -/
def State.WireInv (s : State) : Prop := wirePos s.wire = some s.wireWanted

/-! ### Ends of runs -/

/-- The quiescent point (70_reset_and_hazards R250, log 22). -/
def State.Quiescent (s : State) : Prop :=
  s.quiet ∧ s.dlyActive = false ∧ s.i2cBusy = false ∧
  ((s.schRunning = false ∧ ∀ l ∈ s.agenda, l.isCmd = false) ∨ (s.schRunning = true ∧ s.schInPoll = false))

/-- Responses delivered and still owed: an open delay hold owes one (30_encoding R87). -/
def State.responses (s : State) : Nat := s.resps.length + (if s.dlyActive then 1 else 0)

/-- The number under which a fault stands in the history (60_exceptions R215). -/
def faultNumber (k : FaultKind) (n : Byte) : Prop :=
  (k = .anack ∧ n = 1) ∨ (k = .dnack ∧ n = 2) ∨ (k = .wcol ∧ n = 3) ∨ (k = .timeout ∧ n = 4)

/-- The error history is the same: ring, head and count (10_state R38). -/
def SameHistory (s t : State) : Prop :=
  t.i2cErrlog = s.i2cErrlog ∧ t.i2cErrHead = s.i2cErrHead ∧ t.i2cErrCount = s.i2cErrCount

/-- How many `I2C.WAIT` packets an agenda still holds. -/
def waitsIn (ls : List Label) : Nat := ls.count (encode .i2cWait)

/-- Nothing of the transport, its interrupt, its histories or the gate differs: everything the gate protects (43_scheduler_gate R192). -/
structure SameTransport (s t : State) : Prop where
  inited : t.i2cInited = s.i2cInited
  cbEn : t.i2cCbEn = s.i2cCbEn
  addr : t.i2cAddr = s.i2cAddr
  busy : t.i2cBusy = s.i2cBusy
  error : t.i2cError = s.i2cError
  phase : t.i2cPhase = s.i2cPhase
  dir : t.i2cDir = s.i2cDir
  len : t.i2cLen = s.i2cLen
  idx : t.i2cIdx = s.i2cIdx
  toCnt : t.i2cToCnt = s.i2cToCnt
  txbuf : t.i2cTxbuf = s.i2cTxbuf
  txlen : t.i2cTxlen = s.i2cTxlen
  rxbuf : t.i2cRxbuf = s.i2cRxbuf
  rxlen : t.i2cRxlen = s.i2cRxlen
  errlog : t.i2cErrlog = s.i2cErrlog
  errHead : t.i2cErrHead = s.i2cErrHead
  errCount : t.i2cErrCount = s.i2cErrCount
  ip : t.ipI2c = s.ipI2c
  ev : t.i2cEv = s.i2cEv
  evData : t.i2cEvData = s.i2cEvData
  wire : t.wire = s.wire
  trace : t.trace = s.trace
  held : t.gateHeld = s.gateHeld
  owner : t.gateOwner = s.gateOwner

end Sys2Proof.Machine
end

