-- ==== Sys2Proof/Certificates/Slice0/Obligations.lean ====
section
/-! DEFINITION. The statements for the provers. Each docstring names the rules of the spec it formalises, or says what of the
model it is about. A command's statement has three parts: its encoding, its rejections (`RejectsAsTabled`, 60_exceptions R211
to R213), and its own effect as the whole next state, so that what it leaves unchanged is stated too. -/

open Sys2Proof Sys2Proof.Machine

/-! ### Running, decoding, encoding -/

/-- With no request pending and no hold open, a packet at the head of the agenda that decodes to an instruction is run: the step
is `exec` of it on the state with the packet taken off the agenda (00_scope R8; the agenda is the model's, log 4). -/
def Obligations.StepRunsDecodedPacket : Prop :=
  ∀ (s : State) (p : Packet) (rest : List Label) (i : Instr),
    s.quiet → s.dlyActive = false → s.agenda = .cmd p :: rest → decode (.cmd p) = .ok i →
    step s = exec i { s with agenda := rest }

/-- The same for a bus record, which a hold does not keep back; where it coincides with a `TICK`, the tick's post follows
(60_exceptions R203, R208; the agenda is the model's, log 4). -/
def Obligations.StepRunsDecodedRecord : Prop :=
  ∀ (s : State) (r : Record) (rest : List Label) (i : Instr), s.quiet → decode (.bus r) = .ok i →
    (s.agenda = .bus r :: rest → step s = exec i { s with agenda := rest }) ∧
    (s.agenda = .tickBus r :: rest → ∀ t : State, exec i { s with agenda := rest } = .next t →
      step s = .next { t with ipTick := t.ipTick || t.tbRun })

/-- 60_exceptions R203, R204, R205: with a request pending the step is `DISPATCH`, whatever the environment presents; TICK is
served before I2C, and it leaves the agenda alone. -/
def Obligations.PendingRequestIsServedFirst : Prop :=
  ∀ s : State,
    (s.ipTick = true → step s = .next { s with tbCount := tbTrunc s.cfg (s.tbCount + 1), ipTick := false }) ∧
    (s.ipTick = false → s.ipI2c = true →
      step s = i2cArm s.i2cEv s.i2cEvData { s with ipI2c := false, i2cEv := .none, i2cEvData := 0 })

/-- Packets and records written out from 30_encoding R81, R83 and R90 decode to their instructions (sanity). -/
def Obligations.WrittenPacketsDecode : Prop :=
  decode (.cmd ⟨0x13, [0xFB, 0xFF, 0xFF, 0xFF]⟩) = .ok (.tbElapsed 0xFFFFFFFB) ∧
  decode (.cmd ⟨0x14, [0x02, 0x01]⟩) = .ok (.dlyMs 0x0102) ∧
  decode (.cmd ⟨0x20, [0x68]⟩) = .ok (.i2cInit 0x68) ∧
  decode (.cmd ⟨0x31, []⟩) = .ok .gateRel ∧
  decode (.cmd ⟨0x04, [0x21]⟩) = .ok (.sysRd 0x21) ∧
  decode (.bus ⟨0x03, 0x25⟩) = .ok (.busData 0x25)

/-- Decoding the bytes of any instruction, every operand at every value, gives it back (30_encoding R82, R83, R90). -/
def Obligations.DecodeInvertsEncode : Prop :=
  ∀ i : Instr, decode (encode i) = .ok i

/-- Each word has one meaning: what decodes to an instruction is that instruction's encoding, at the port it came in by. That a record's
data byte must be 0 but in `BUS.DATA`, on which the record half rests, is the model's reading of 30_encoding R90 (log 14, DEDUCED). -/
def Obligations.EncodeInvertsDecode : Prop :=
  ∀ (i : Instr), (∀ p : Packet, decode (.cmd p) = .ok i → encode i = .cmd p) ∧
    (∀ r : Record, decode (.bus r) = .ok i → encode i = .bus r)

/-- 30_encoding R85: exactly the listed opcode bytes are reserved; a packet with one is rejected with `E_ILLEGAL` whatever its
length, and changes nothing. -/
def Obligations.ReservedOpcodesAreIllegal : Prop :=
  ∀ p : Packet,
    (decode (.cmd p) = .error .illegal ↔
      (p.opcode = 0x00 ∨ p.opcode = 0x03 ∨ (0x05 ≤ p.opcode ∧ p.opcode ≤ 0x0F) ∨ (0x16 ≤ p.opcode ∧ p.opcode ≤ 0x1F) ∨
        (0x2A ≤ p.opcode ∧ p.opcode ≤ 0x2F) ∨ 0x32 ≤ p.opcode)) ∧
    ∀ (s : State) (rest : List Label), s.quiet → s.dlyActive = false → s.agenda = .cmd p :: rest →
      decode (.cmd p) = .error .illegal → step s = .next { s with agenda := rest, resps := s.resps ++ [⟨.illegal, 0⟩] }

/-- 30_encoding R84, R81: a packet is rejected with `E_LENGTH` exactly when its opcode is one of the map and its operand bytes are not
as many as the opcode's format has; the step that presents it changes nothing. -/
def Obligations.WrongLengthIsRejected : Prop :=
  ∀ p : Packet,
    (decode (.cmd p) = .error .length ↔
      (p.opcode ∈ [0x01, 0x02, 0x10, 0x11, 0x12, 0x22, 0x24, 0x26, 0x27, 0x30, 0x31] ∧ p.operand.length ≠ 0) ∨
      (p.opcode ∈ [0x04, 0x20, 0x21, 0x23, 0x25, 0x28, 0x29] ∧ p.operand.length ≠ 1) ∨
      (p.opcode ∈ [0x14, 0x15] ∧ p.operand.length ≠ 2) ∨ (p.opcode = 0x13 ∧ p.operand.length ≠ 4)) ∧
    ∀ (s : State) (rest : List Label), s.quiet → s.dlyActive = false → s.agenda = .cmd p :: rest →
      decode (.cmd p) = .error .length → step s = .next { s with agenda := rest, resps := s.resps ++ [⟨.length, 0⟩] }

/-! ### Unit TB -/

/-- 40_timebase R101. -/
def Obligations.TbStartZeroesAndArms : Prop :=
  EncodedF0 0x10 .tbStart ∧ RejectsAsTabled .tbStart ∧
  ∀ s : State, s.ctxOpen →
    exec .tbStart s = .next { s with tbCount := 0, tbRun := true, resps := s.resps ++ [⟨.ok, 0⟩] }

/-- 40_timebase R102. -/
def Obligations.TbStopKeepsCount : Prop :=
  EncodedF0 0x11 .tbStop ∧ RejectsAsTabled .tbStop ∧
  ∀ s : State, s.ctxOpen → exec .tbStop s = .next { s with tbRun := false, resps := s.resps ++ [⟨.ok, 0⟩] }

/-- 40_timebase R103, for a count of TB_WIDTH bits (10_state R22). -/
def Obligations.TbNowReadsCount : Prop :=
  EncodedF0 0x12 .tbNow ∧ RejectsAsTabled .tbNow ∧
  ∀ s : State, s.ctxOpen → s.tbCount.toNat < 2 ^ s.cfg.tbWidth → exec .tbNow s = .next (s.answer .ok s.tbCount)

/-- 40_timebase R104: the response is `(tb_count - s) mod 2^TB_WIDTH`, an integer remainder. -/
def Obligations.TbElapsedSubtractsModularly : Prop :=
  EncodedF4 0x13 .tbElapsed ∧ (∀ stamp, RejectsAsTabled (.tbElapsed stamp)) ∧
  ∀ (s : State) (stamp : Word), s.cfg.wf → s.ctxOpen → stamp.toNat < 2 ^ s.cfg.tbWidth →
    ∃ v : Word, exec (.tbElapsed stamp) s = .next (s.answer .ok v) ∧
      (v.toNat : Int) = ((s.tbCount.toNat : Int) - (stamp.toNat : Int)) % ((2 ^ s.cfg.tbWidth : Nat) : Int)

/-- 40_timebase R106, the begin of `DLY.MS n`: with `n = 0` it ends at once, else a hold of `1000 * n` microseconds opens and the
response is still owed. -/
def Obligations.DlyMsOpensHold : Prop :=
  EncodedF2 0x14 .dlyMs ∧ (∀ n, RejectsAsTabled (.dlyMs n)) ∧
  ∀ (s : State) (n : Half), s.ctxOpen →
    (n = 0 → exec (.dlyMs n) s =
      .next { s with dlyT0 := s.frCount, dlyNeed := 0, dlyActive := false, resps := s.resps ++ [⟨.ok, 0⟩] }) ∧
    (n ≠ 0 → exec (.dlyMs n) s =
      .next { s with dlyT0 := s.frCount, dlyNeed := BitVec.ofNat 32 (1000 * n.toNat), dlyActive := true })

/-- 40_timebase R107, the begin of `DLY.US n`. -/
def Obligations.DlyUsOpensHold : Prop :=
  EncodedF2 0x15 .dlyUs ∧ (∀ n, RejectsAsTabled (.dlyUs n)) ∧
  ∀ (s : State) (n : Half), s.ctxOpen →
    (n = 0 → exec (.dlyUs n) s =
      .next { s with dlyT0 := s.frCount, dlyNeed := 0, dlyActive := false, resps := s.resps ++ [⟨.ok, 0⟩] }) ∧
    (n ≠ 0 → exec (.dlyUs n) s =
      .next { s with dlyT0 := s.frCount, dlyNeed := BitVec.ofNat 32 n.toNat, dlyActive := true })

/-- 40_timebase R106, R110, the end of a hold: begun at any `fr_count`, it is still open after fewer than `need` `USTICK` steps
and ended by the last of `need` of them, with the one response `(OK, 0)`. -/
def Obligations.HoldLastsExactlyItsMicroseconds : Prop :=
  ∀ (s : State) (need : Word) (k : Nat) (t : State), s.quiet → s.dlyActive = true → s.dlyT0 = s.frCount → s.dlyNeed = need →
    k ≤ need.toNat → need ≠ 0 → s.agenda = List.replicate k .usTick → core.run k s = .next t →
    t.frCount = s.frCount + BitVec.ofNat 32 k ∧ t.agenda = [] ∧
    (k < need.toNat → t.dlyActive = true ∧ t.resps = s.resps) ∧
    (k = need.toNat → t.dlyActive = false ∧ t.resps = s.resps ++ [⟨.ok, 0⟩])

/-- 60_exceptions R203, 40_timebase R106: while a hold is open the HOST has no step. Its packets stay in the agenda (that they wait
there is the model's choice, log 6), no response is delivered but the hold's own, and that one only once the time has passed. -/
def Obligations.HoldKeepsHostBack : Prop :=
  ∀ s t : State, s.quiet → s.dlyActive = true → step s = .next t →
    t.agenda.filter Label.isCmd = s.agenda.filter Label.isCmd ∧ t.dlyT0 = s.dlyT0 ∧ t.dlyNeed = s.dlyNeed ∧
    ((t.dlyActive = true ∧ t.resps = s.resps) ∨
     (t.dlyActive = false ∧ t.resps = s.resps ++ [⟨.ok, 0⟩] ∧ t.dlyNeed.toNat ≤ (t.frCount - t.dlyT0).toNat))

/-- 40_timebase R108 and R109: a `TICK` posts the request when the timebase runs and else changes nothing; served, it counts
one, wrapping at `2^TB_WIDTH`. -/
def Obligations.TickCountsOneAndWraps : Prop :=
  (∀ (s : State) (rest : List Label), s.quiet → s.agenda = .tick :: rest →
    step s = .next { s with agenda := rest, ipTick := s.tbRun }) ∧
  (∀ s : State, s.ipTick = true → ∃ c : Word, step s = .next { s with tbCount := c, ipTick := false } ∧
    (s.cfg.wf → c.toNat = (s.tbCount.toNat + 1) % 2 ^ s.cfg.tbWidth))

/-- 40_timebase R110: a `USTICK` adds one to the free-running counter modulo `2^32` and, with no hold open, changes nothing else. -/
def Obligations.UsTickCountsOne : Prop :=
  ∀ (s : State) (rest : List Label), s.quiet → s.dlyActive = false → s.agenda = .usTick :: rest →
    ∃ c : Word, c.toNat = (s.frCount.toNat + 1) % 2 ^ 32 ∧ step s = .next { s with agenda := rest, frCount := c }

/-- 40_timebase R112: `tb_count` changes only by one, modulo wrap, when a pending tick is served, and to 0 by `TB.START`. -/
def Obligations.TbCountHasTwoWriters : Prop :=
  ∀ s t : State, step s = .next t → t.tbCount ≠ s.tbCount →
    (s.ipTick = true ∧ t.tbCount = tbTrunc s.cfg (s.tbCount + 1)) ∨
    (s.quiet ∧ s.dlyActive = false ∧ s.agenda = encode .tbStart :: t.agenda ∧ t.tbCount = 0)

/-- 40_timebase R104, R109, R112, 70_reset_and_hazards R244: a timestamp taken `k` served ticks ago measures `k`, across the wrap,
modulo `2^TB_WIDTH`. -/
def Obligations.ElapsedMeasuresServedTicks : Prop :=
  ∀ (s : State) (k : Nat), s.cfg.wf → s.ctxOpen → s.tbCount.toNat < 2 ^ s.cfg.tbWidth →
    exec (.tbElapsed s.tbCount) (tickIsr^[k] s) =
      .next ((tickIsr^[k] s).answer .ok (BitVec.ofNat 32 (k % 2 ^ s.cfg.tbWidth)))

/-- 40_timebase R111: the two time sources share no state. `TICK`, `TickIsr` and the four commands on the millisecond counter leave
`fr_count` and the hold as they are and do the same whatever those hold; `USTICK`, `DLY.MS` and `DLY.US` leave `tb_count`, `tb_run`
and `ip_tick` as they are and do the same whatever those hold. -/
def Obligations.TimeSourcesAreIndependent : Prop :=
  (∀ (stamp : Word) (run : State → Result) (s t : State),
    run ∈ [perform .tick, fun s => .next (tickIsr s), exec .tbStart, exec .tbStop, exec .tbNow, exec (.tbElapsed stamp)] →
    run s = .next t →
      (t.frCount = s.frCount ∧ t.dlyActive = s.dlyActive ∧ t.dlyT0 = s.dlyT0 ∧ t.dlyNeed = s.dlyNeed) ∧
      ∀ (f t0 n : Word) (a : Bool), run { s with frCount := f, dlyT0 := t0, dlyNeed := n, dlyActive := a } =
        .next { t with frCount := f, dlyT0 := t0, dlyNeed := n, dlyActive := a }) ∧
  (∀ (m : Half) (run : State → Result) (s t : State),
    run ∈ [perform .usTick, exec (.dlyMs m), exec (.dlyUs m)] → run s = .next t →
      (t.tbCount = s.tbCount ∧ t.tbRun = s.tbRun ∧ t.ipTick = s.ipTick) ∧
      ∀ (c : Word) (r p : Bool), run { s with tbCount := c, tbRun := r, ipTick := p } =
        .next { t with tbCount := c, tbRun := r, ipTick := p }) ∧
  (∀ s t : State, perform .tick s = .next t → t.resps = s.resps)

/-! ### Unit I2C, host side -/

/-- 41_i2c_transport R121. -/
def Obligations.I2cInitSetsUpTransport : Prop :=
  EncodedF1 0x20 .i2cInit ∧ (∀ a, RejectsAsTabled (.i2cInit a)) ∧
  ∀ (s : State) (a : Byte), a.toNat < 128 → s.ctxOpen → s.gateOpen → s.i2cInited = false →
    exec (.i2cInit a) s = .next { s with
      i2cInited := true, i2cCbEn := 0b11111, i2cAddr := a.setWidth 7, i2cBusy := false, i2cError := false, i2cPhase := .idle,
      i2cDir := .transmit, i2cLen := 0, i2cIdx := 0, i2cToCnt := 0, i2cTxlen := 0, i2cRxlen := 0, i2cErrHead := 0,
      i2cErrCount := 0, resps := s.resps ++ [⟨.ok, 0⟩] }

/-- 41_i2c_transport R122. -/
def Obligations.I2cSetaddrChangesAddressOnly : Prop :=
  EncodedF1 0x21 .i2cSetaddr ∧ (∀ a, RejectsAsTabled (.i2cSetaddr a)) ∧
  ∀ (s : State) (a : Byte), a.toNat < 128 → s.ctxOpen → s.i2cInited = true → s.gateOpen → s.i2cBusy = false →
    exec (.i2cSetaddr a) s = .next { s with i2cAddr := a.setWidth 7, resps := s.resps ++ [⟨.ok, 0⟩] }

/-- 41_i2c_transport R123. -/
def Obligations.I2cResetReturnsToIdle : Prop :=
  EncodedF0 0x22 .i2cReset ∧ RejectsAsTabled .i2cReset ∧
  ∀ s : State, s.ctxOpen → s.i2cInited = true → s.gateOpen →
    exec .i2cReset s = .next { s with
      wire := s.wire ++ (if s.i2cPhase ≠ .idle ∧ s.i2cPhase ≠ .stop then [.stop] else []),
      i2cBusy := false, i2cError := false, i2cPhase := .idle, i2cDir := .transmit, i2cLen := 0, i2cIdx := 0, i2cToCnt := 0,
      i2cTxlen := 0, i2cRxlen := 0, ipI2c := false, i2cEv := .none, i2cEvData := 0, resps := s.resps ++ [⟨.ok, 0⟩] }

/-- 41_i2c_transport R124, R125: idle, the byte is stored at index `i2c_txlen` and the length grows by one, every other byte of
the three spaces reads as before; while an operation is outstanding nothing but a write-collision request is made. -/
def Obligations.I2cPushAppendsOneByte : Prop :=
  EncodedF1 0x23 .i2cPush ∧ (∀ b, RejectsAsTabled (.i2cPush b)) ∧
  ∀ (s : State) (b : Byte), s.ctxOpen → s.i2cInited = true → s.gateOpen →
    (s.i2cBusy = true → exec (.i2cPush b) s =
      .next { s with i2cEv := .wcol, i2cEvData := 0, ipI2c := true, resps := s.resps ++ [⟨.ok, 0⟩] }) ∧
    (s.i2cBusy = false → s.i2cTxlen.toNat < s.cfg.i2cBufLen → ∃ m : Memory, exec (.i2cPush b) s =
        .next { s with i2cTxbuf := m, i2cTxlen := s.i2cTxlen + 1, resps := s.resps ++ [⟨.ok, 1⟩] } ∧
      (s.i2cTxbuf.wf = true → ∀ j : Nat, m.read j = if j = s.i2cTxlen.toNat then b else s.i2cTxbuf.read j))

/-- 41_i2c_transport R126. -/
def Obligations.I2cStarttxBeginsTransmit : Prop :=
  EncodedF0 0x24 .i2cStarttx ∧ RejectsAsTabled .i2cStarttx ∧
  ∀ s : State, s.ctxOpen → s.i2cInited = true → s.gateOpen →
    (s.i2cBusy = true → exec .i2cStarttx s =
      .next { s with i2cEv := .wcol, i2cEvData := 0, ipI2c := true, resps := s.resps ++ [⟨.ok, 0⟩] }) ∧
    (s.i2cBusy = false → exec .i2cStarttx s = .next { s with
      i2cBusy := true, i2cDir := .transmit, i2cLen := s.i2cTxlen, i2cIdx := 0, i2cToCnt := 0, i2cPhase := .addr,
      wire := s.wire ++ [.start, .ad s.i2cAddr .transmit], resps := s.resps ++ [⟨.ok, 1⟩] })

/-- 41_i2c_transport R127. -/
def Obligations.I2cStartrxBeginsReceive : Prop :=
  EncodedF1 0x25 .i2cStartrx ∧ (∀ n, RejectsAsTabled (.i2cStartrx n)) ∧
  ∀ (s : State) (n : Byte), 1 ≤ n.toNat → n.toNat ≤ s.cfg.i2cBufLen → s.ctxOpen → s.i2cInited = true → s.gateOpen →
    (s.i2cBusy = true → exec (.i2cStartrx n) s =
      .next { s with i2cEv := .wcol, i2cEvData := 0, ipI2c := true, resps := s.resps ++ [⟨.ok, 0⟩] }) ∧
    (s.i2cBusy = false → exec (.i2cStartrx n) s = .next { s with
      i2cBusy := true, i2cDir := .receive, i2cLen := n, i2cIdx := 0, i2cRxlen := 0, i2cToCnt := 0, i2cPhase := .addr,
      wire := s.wire ++ [.start, .ad s.i2cAddr .receive], resps := s.resps ++ [⟨.ok, 1⟩] })

/-- 41_i2c_transport R131: idle it answers 0; busy it answers 1 and counts one turn, and the turn that reaches
I2C_TIMEOUT_CYCLES posts the timeout. -/
def Obligations.I2cWaitCountsAndTimesOut : Prop :=
  EncodedF0 0x26 .i2cWait ∧ RejectsAsTabled .i2cWait ∧
  ∀ s : State, s.ctxOpen → s.i2cInited = true → s.gateOpen →
    (s.i2cBusy = false → exec .i2cWait s = .next (s.answer .ok 0)) ∧
    (s.i2cBusy = true → (s.i2cToCnt + 1).toNat ≠ s.cfg.i2cTimeoutCycles →
      exec .i2cWait s = .next { s with i2cToCnt := s.i2cToCnt + 1, resps := s.resps ++ [⟨.ok, 1⟩] }) ∧
    (s.i2cBusy = true → (s.i2cToCnt + 1).toNat = s.cfg.i2cTimeoutCycles →
      exec .i2cWait s = .next { s with
        i2cToCnt := s.i2cToCnt + 1, i2cEv := .timeout, i2cEvData := 0, ipI2c := true, resps := s.resps ++ [⟨.ok, 1⟩] })

/-- 41_i2c_transport R132. -/
def Obligations.I2cResultTellsSuccess : Prop :=
  EncodedF0 0x27 .i2cResult ∧ RejectsAsTabled .i2cResult ∧
  ∀ s : State, s.ctxOpen → s.i2cInited = true →
    exec .i2cResult s = .next (s.answer .ok (if s.i2cBusy = false ∧ s.i2cError = false then 1 else 0))

/-- 41_i2c_transport R133: a byte that arrived is read and not consumed. The index is below the buffer's capacity in every state of
the invariant (10_state R37). -/
def Obligations.I2cRxrdReadsReceivedByte : Prop :=
  EncodedF1 0x28 .i2cRxrd ∧ (∀ x, RejectsAsTabled (.i2cRxrd x)) ∧
  ∀ (s : State) (x : Byte), s.ctxOpen → s.i2cInited = true → x.toNat < s.i2cRxlen.toNat → s.i2cRxlen.toNat ≤ s.cfg.i2cBufLen →
    exec (.i2cRxrd x) s = .next (s.answer .ok ((s.i2cRxbuf.read x.toNat).setWidth 32))

/-- 41_i2c_transport R134: the entry of age `x`, counted back from the newest. -/
def Obligations.I2cErrrdReadsByAge : Prop :=
  EncodedF1 0x29 .i2cErrrd ∧ (∀ x, RejectsAsTabled (.i2cErrrd x)) ∧
  ∀ (s : State) (x : Byte), s.ctxOpen → s.i2cInited = true → x.toNat < s.i2cErrCount.toNat → s.cfg.wf →
    exec (.i2cErrrd x) s = .next (s.answer .ok ((s.i2cErrlog.read
      ((s.i2cErrHead.toNat + s.cfg.i2cErrlogLen - 1 - x.toNat) % s.cfg.i2cErrlogLen)).setWidth 32))

/-! ### Unit I2C, bus side -/

/-- 42_i2c_bus_fsm R151: a response that the phase admits latches its event, requests the interrupt and puts its symbol on the
wire, nothing else. -/
def Obligations.BusResponsesLatchTheirEvent : Prop :=
  ∀ s : State, s.quiet →
    (s.i2cPhase = .addr ∨ s.i2cPhase = .tx →
      exec .busAck s = .next { s with i2cEv := .ack, i2cEvData := 0, ipI2c := true, wire := s.wire ++ [.ack] } ∧
      exec .busNack s = .next { s with i2cEv := .nack, i2cEvData := 0, ipI2c := true, wire := s.wire ++ [.nack] }) ∧
    (s.i2cPhase = .rx → ∀ b : Byte,
      exec (.busData b) s = .next { s with i2cEv := .data, i2cEvData := b, ipI2c := true, wire := s.wire ++ [.received b] }) ∧
    (s.i2cPhase = .stop → exec .busStopped s = .next { s with i2cEv := .stopped, i2cEvData := 0, ipI2c := true }) ∧
    (s.i2cPhase ≠ .idle → exec .busCollision s = .next { s with i2cEv := .wcol, i2cEvData := 0, ipI2c := true })

/-- A response that the phase does not admit, or that comes while a request is pending, changes nothing: the rule says that the
step is not enabled (42_i2c_bus_fsm R151), the model lets it pass without effect (log 5, DESIGN CHOICE). -/
def Obligations.UnfitResponsesDoNothing : Prop :=
  ∀ (s : State) (b : Byte),
    (¬s.quiet ∨ (s.i2cPhase ≠ .addr ∧ s.i2cPhase ≠ .tx) → exec .busAck s = .next s ∧ exec .busNack s = .next s) ∧
    (¬s.quiet ∨ s.i2cPhase ≠ .rx → exec (.busData b) s = .next s) ∧
    (¬s.quiet ∨ s.i2cPhase ≠ .stop → exec .busStopped s = .next s) ∧
    (¬s.quiet ∨ s.i2cPhase = .idle → exec .busCollision s = .next s)

/-- 42_i2c_bus_fsm R153, R155: the arms of an acknowledged address and an acknowledged byte of a transmit, and of an acknowledged
address of a receive. -/
def Obligations.AckMovesOperationOn : Prop :=
  ∀ (s : State) (d : Byte),
    (s.i2cPhase = .addr → s.i2cDir = .receive → i2cArm .ack d s = .next { s with i2cPhase := .rx }) ∧
    (s.i2cPhase = .addr → s.i2cDir = .transmit → s.i2cLen = 0 →
      i2cArm .ack d s = .next { s with i2cPhase := .stop, wire := s.wire ++ [.stop] }) ∧
    (s.i2cPhase = .addr → s.i2cDir = .transmit → s.i2cLen ≠ 0 → 0 < s.cfg.i2cBufLen →
      i2cArm .ack d s = .next { s with i2cPhase := .tx, wire := s.wire ++ [.sent (s.i2cTxbuf.read 0)] }) ∧
    (s.i2cPhase = .tx → s.i2cIdx + 1 = s.i2cLen →
      i2cArm .ack d s = .next { s with i2cIdx := s.i2cIdx + 1, i2cPhase := .stop, wire := s.wire ++ [.stop] }) ∧
    (s.i2cPhase = .tx → s.i2cIdx + 1 ≠ s.i2cLen → (s.i2cIdx + 1).toNat < s.cfg.i2cBufLen →
      i2cArm .ack d s = .next { s with
        i2cIdx := s.i2cIdx + 1, wire := s.wire ++ [.sent (s.i2cTxbuf.read (s.i2cIdx + 1).toNat)] })

/-- 42_i2c_bus_fsm R157: a received byte is stored at index `i2c_idx` and at no other; the master acknowledges it but for the
last one, after which it drives the stop condition. -/
def Obligations.DataByteIsStoredInOrder : Prop :=
  ∀ (s : State) (d : Byte), s.i2cPhase = .rx → s.i2cIdx.toNat < s.cfg.i2cBufLen → ∃ m : Memory,
    (s.i2cRxbuf.wf = true → ∀ j : Nat, m.read j = if j = s.i2cIdx.toNat then d else s.i2cRxbuf.read j) ∧
    (s.i2cIdx + 1 = s.i2cLen → i2cArm .data d s = .next { s with
      i2cRxbuf := m, i2cIdx := s.i2cIdx + 1, i2cRxlen := s.i2cIdx + 1, i2cPhase := .stop,
      wire := s.wire ++ [.masterNack, .stop] }) ∧
    (s.i2cIdx + 1 ≠ s.i2cLen → i2cArm .data d s = .next { s with
      i2cRxbuf := m, i2cIdx := s.i2cIdx + 1, i2cRxlen := s.i2cIdx + 1, wire := s.wire ++ [.masterAck] })

/-- 42_i2c_bus_fsm R160 with R154, R156, R159, R162, and the fault numbers of 60_exceptions R215: which event is which fault, and what `Fault(k)` does: a stop condition
unless one was driven, error set, busy cleared, idle, the code written at the ring's head and nowhere else, head and count moved
on, `CB(k)` in the trace. -/
def Obligations.FaultCallbackRecordsAndIdles : Prop :=
  ∀ (s : State) (d : Byte) (e : Event) (k : FaultKind) (c : Byte), s.cfg.wf → s.i2cErrHead.toNat < s.cfg.i2cErrlogLen →
    s.i2cErrCount.toNat ≤ s.cfg.i2cErrlogLen →
    ((s.i2cPhase = .addr ∧ e = .nack ∧ k = .anack ∧ c = 1) ∨ (s.i2cPhase = .tx ∧ e = .nack ∧ k = .dnack ∧ c = 2) ∨
      (s.i2cPhase ≠ .idle ∧ e = .wcol ∧ k = .wcol ∧ c = 3) ∨ (s.i2cPhase ≠ .idle ∧ e = .timeout ∧ k = .timeout ∧ c = 4)) →
    ∃ (m : Memory) (head count : Byte),
      i2cArm e d s = .next { s with
        wire := s.wire ++ (if s.i2cPhase ≠ .stop then [.stop] else []), i2cError := true, i2cBusy := false, i2cPhase := .idle,
        i2cErrlog := m, i2cErrHead := head, i2cErrCount := count, trace := s.trace ++ [.cb (.fault k)] } ∧
      (s.i2cErrlog.wf = true → ∀ j : Nat, m.read j = if j = s.i2cErrHead.toNat then c else s.i2cErrlog.read j) ∧
      head.toNat = (s.i2cErrHead.toNat + 1) % s.cfg.i2cErrlogLen ∧
      count.toNat = min (s.i2cErrCount.toNat + 1) s.cfg.i2cErrlogLen

/-- 42_i2c_bus_fsm R158, R161: the stop condition completes, the operation is done, the error flag stays as it is. -/
def Obligations.StopCompletesOperation : Prop :=
  ∀ (s : State) (d : Byte), s.i2cPhase = .stop →
    i2cArm .stopped d s = .next { s with i2cBusy := false, i2cPhase := .idle, trace := s.trace ++ [.cb .done] }

/-- 42_i2c_bus_fsm R163: in `PH_IDLE`, and for every event that the phase does not go with, the handler's arm changes nothing. -/
def Obligations.UnlistedEventsReturnUnchanged : Prop :=
  ∀ (s : State) (d : Byte) (e : Event),
    (s.i2cPhase = .idle ∨ e = .none ∨ (e = .data ∧ s.i2cPhase ≠ .rx) ∨ (e = .stopped ∧ s.i2cPhase ≠ .stop) ∨
      ((e = .ack ∨ e = .nack) ∧ (s.i2cPhase = .rx ∨ s.i2cPhase = .stop))) →
    i2cArm e d s = .next s

/-- 20_memory R72 (c), 60_exceptions R204: the two handlers do not disturb each other; either order gives the same state. -/
def Obligations.HandlersCommute : Prop :=
  ∀ s : State, i2cIsr (tickIsr s) =
    match i2cIsr s with
    | .next t => .next (tickIsr t)
    | .fault f => .fault f
    | .refused r => .refused r

/-- 42_i2c_bus_fsm R165: an operation ends with exactly one callback, `CB(0)` with the error flag and the history unchanged, or one
`CB(k)` with the error flag set and one new history entry, the number of `k`, at the ring's head, unless `I2C.RESET` abandons it, with
no callback and no entry. Whatever a step appends to the trace, a callback in it stands alone and ends an operation. -/
def Obligations.OneCallbackEndsOperation : Prop :=
  ∀ s t : State, s.Inv → step s = .next t →
    (s.i2cBusy = true → t.i2cBusy = false →
      (t.trace = s.trace ++ [.cb .done] ∧ t.i2cError = s.i2cError ∧ SameHistory s t) ∨
      (∃ (k : FaultKind) (c : Byte), faultNumber k c ∧ t.trace = s.trace ++ [.cb (.fault k)] ∧ t.i2cError = true ∧
        t.i2cErrHead.toNat = (s.i2cErrHead.toNat + 1) % s.cfg.i2cErrlogLen ∧
        t.i2cErrCount.toNat = min (s.i2cErrCount.toNat + 1) s.cfg.i2cErrlogLen ∧
        ∀ j : Nat, t.i2cErrlog.read j = if j = s.i2cErrHead.toNat then c else s.i2cErrlog.read j) ∨
      (t.trace = s.trace ∧ SameHistory s t ∧ s.quiet ∧ s.agenda = encode .i2cReset :: t.agenda)) ∧
    ∃ added : List TraceEvent, t.trace = s.trace ++ added ∧
      ∀ c : Callback, .cb c ∈ added → added = [.cb c] ∧ s.i2cBusy = true ∧ t.i2cBusy = false

/-- 41_i2c_transport R140: while the HOST issues nothing but `I2C.WAIT`, with whatever ticks and bus responses in between or none, an
outstanding operation has ended once the turns counted reach I2C_TIMEOUT_CYCLES. It ended with one callback, and after a fault
the error flag is set and the newest history entry is that fault. -/
def Obligations.WaitLoopEndsOperation : Prop :=
  ∀ (s t : State) (n : Nat), s.Inv → s.dlyActive = false → s.ctxOpen → s.gateOpen → s.i2cBusy = true →
    (∀ l ∈ s.agenda, l.isCmd = true → l = encode .i2cWait) →
    s.cfg.i2cTimeoutCycles ≤ s.i2cToCnt.toNat + waitsIn s.agenda →
    core.run n s = .next t → t.agenda = [] → t.quiet →
    t.i2cBusy = false ∧ ∃ c : Callback, t.trace = s.trace ++ [.cb c] ∧
      ∀ (k : FaultKind) (n : Byte), c = .fault k → faultNumber k n →
        t.i2cError = true ∧ t.i2cErrlog.read (t.errIndex 0) = n

/-- 42_i2c_bus_fsm R164: the wire history stays a sequence of sentences of the grammar (no start condition between a start and its
stop), the last one exactly as far as the phase says. -/
def Obligations.WireStaysInGrammar : Prop :=
  ∀ s t : State, s.Inv → s.WireInv → step s = .next t → t.WireInv

/-- 41_i2c_transport R136: the commands of `TRANSMIT a, bs` up to the wait loop, issued one after another on an idle transport, put
the bytes in the buffer in order and start the operation. -/
def Obligations.TransmitPrefixStartsOperation : Prop :=
  ∀ (s : State) (a : Byte) (bs : List Byte), a.toNat < 128 → bs.length ≤ s.cfg.i2cBufLen → s.cfg.wf → s.ctxOpen →
    s.i2cInited = true → s.gateOpen → s.i2cBusy = false → s.i2cPhase = .idle → s.i2cTxbuf.wf = true →
    ∃ t : State, issueAll (transmitStart a bs) s = .next t ∧ t.i2cBusy = true ∧ t.i2cError = false ∧ t.i2cPhase = .addr ∧
      t.i2cDir = .transmit ∧ t.i2cAddr = a.setWidth 7 ∧ t.i2cLen.toNat = bs.length ∧ t.i2cIdx = 0 ∧ t.i2cToCnt = 0 ∧
      (∀ (j : Nat) (h : j < bs.length), t.i2cTxbuf.read j = bs[j]) ∧
      t.wire = s.wire ++ [.start, .ad (a.setWidth 7) .transmit] ∧ t.trace = s.trace

/-! ### Unit SCH -/

/-- 43_scheduler_gate R182. -/
def Obligations.SchRunEntersLoop : Prop :=
  EncodedF0 0x01 .schRun ∧ RejectsAsTabled .schRun ∧
  ∀ s : State, s.schRunning = false → exec .schRun s = .next { s with
    schRunning := true, schSlot := firstSlot s.cfg.schEnableMask, schInPoll := false, resps := s.resps ++ [⟨.ok, 0⟩] }

/-- 43_scheduler_gate R184. -/
def Obligations.SchRetAdvancesSlot : Prop :=
  EncodedF0 0x02 .schRet ∧ RejectsAsTabled .schRet ∧
  ∀ s : State, s.schInPoll = true → exec .schRet s = .next { s with
    schInPoll := false, schSlot := nextSlot s.cfg.schEnableMask s.schSlot, resps := s.resps ++ [⟨.ok, 0⟩] }

/-- 43_scheduler_gate R193: for a non-zero mask, `NextSlot(s)` is the lowest enabled slot above `s` where there is one, else the
lowest enabled slot; `FirstSlot` is the lowest enabled slot. -/
def Obligations.NextSlotIsLowestEnabled : Prop :=
  ∀ (mask : BitVec 6) (slot : Slot), mask ≠ 0 →
    mask.getLsbD (nextSlot mask slot).toNat = true ∧ mask.getLsbD (firstSlot mask).toNat = true ∧
    (∀ u : Nat, u < (firstSlot mask).toNat → mask.getLsbD u = false) ∧
    ((∃ u : Nat, slot.toNat < u ∧ mask.getLsbD u = true) → slot.toNat < (nextSlot mask slot).toNat ∧
      ∀ u : Nat, slot.toNat < u → u < (nextSlot mask slot).toNat → mask.getLsbD u = false) ∧
    ((∀ u : Nat, slot.toNat < u → mask.getLsbD u = false) → nextSlot mask slot = firstSlot mask)

/-- 43_scheduler_gate R183: `POLL` opens a poll where the loop runs and none is open. Elsewhere the rule says that the step is not
enabled; that it then passes without effect is the model's choice (log 5). -/
def Obligations.PollOpensPoll : Prop :=
  ∀ (s : State) (rest : List Label), s.quiet → s.agenda = .poll :: rest →
    (s.schRunning = true → s.schInPoll = false →
      step s = .next { s with agenda := rest, schInPoll := true, trace := s.trace ++ [.poll s.schSlot] }) ∧
    (s.schRunning = false ∨ s.schInPoll = true → step s = .next { s with agenda := rest })

/-- 43_scheduler_gate R188 with the layouts of 10_state R47 and the numbers of R31 and R32: each register's value as a sum of its fields at their places, for a
count of TB_WIDTH bits. -/
def Obligations.SysRdReadsStatusRegisters : Prop :=
  EncodedF1 0x04 .sysRd ∧ (∀ r, RejectsAsTabled (.sysRd r)) ∧
  ∀ (s : State) (r : Byte), s.ctxOpen → sregNumbers.contains r = true → s.tbCount.toNat < 2 ^ s.cfg.tbWidth →
    ∃ v : Word, exec (.sysRd r) s = .next (s.answer .ok v) ∧
      (r = 0x01 → v = s.tbCount) ∧ (r = 0x02 → v.toNat = s.tbRun.toNat) ∧ (r = 0x03 → v = s.frCount) ∧
      (r = 0x10 → v.toNat = s.i2cInited.toNat + 2 * s.i2cCbEn.toNat) ∧ (r = 0x11 → v.toNat = s.i2cAddr.toNat) ∧
      (r = 0x12 → v.toNat = s.i2cBusy.toNat + 2 * s.i2cError.toNat +
        4 * (match s.i2cPhase with | .idle => 0 | .addr => 1 | .tx => 2 | .rx => 3 | .stop => 4) +
        32 * (match s.i2cDir with | .transmit => 0 | .receive => 1) + 2 ^ 8 * s.i2cIdx.toNat + 2 ^ 16 * s.i2cLen.toNat) ∧
      (r = 0x13 → v = s.i2cToCnt) ∧ (r = 0x14 → v.toNat = s.i2cTxlen.toNat + 2 ^ 8 * s.i2cRxlen.toNat) ∧
      (r = 0x15 → v.toNat = s.i2cErrCount.toNat + 2 ^ 8 * s.i2cErrHead.toNat) ∧
      (r = 0x20 → v.toNat = s.schRunning.toNat + 2 * s.schInPoll.toNat + 4 * s.schSlot.toNat) ∧
      (r = 0x21 → v.toNat = s.gateHeld.toNat + 2 * s.gateOwner.toNat)

/-- 43_scheduler_gate R186, R181. -/
def Obligations.GateReqGrantsOrDenies : Prop :=
  EncodedF0 0x30 .gateReq ∧ RejectsAsTabled .gateReq ∧
  ∀ s : State, s.ctxOpen →
    (s.gateHeld = true → s.gateOwner = s.requester → exec .gateReq s = .next (s.answer .ok 1)) ∧
    (s.gateHeld = false → s.i2cBusy = false → exec .gateReq s = .next { s with
      gateHeld := true, gateOwner := if s.schInPoll then s.schSlot else 7, resps := s.resps ++ [⟨.ok, 1⟩] }) ∧
    (s.gateHeld = true → s.gateOwner ≠ s.requester → exec .gateReq s = .next (s.answer .ok 0)) ∧
    (s.gateHeld = false → s.i2cBusy = true → exec .gateReq s = .next (s.answer .ok 0))

/-- 43_scheduler_gate R187. -/
def Obligations.GateRelReleasesOwn : Prop :=
  EncodedF0 0x31 .gateRel ∧ RejectsAsTabled .gateRel ∧
  ∀ s : State, s.ctxOpen →
    (s.gateHeld = true → s.gateOwner = s.requester → s.i2cBusy = false →
      exec .gateRel s = .next { s with gateHeld := false, resps := s.resps ++ [⟨.ok, 1⟩] }) ∧
    (s.gateHeld = false ∨ s.gateOwner ≠ s.requester → exec .gateRel s = .next (s.answer .ok 0))

/-- 43_scheduler_gate R192 (b): while another requester owns the gate, no command of this one changes anything of the transport,
its interrupt, the wire or the gate. -/
def Obligations.GateKeepsOthersOut : Prop :=
  ∀ (i : Instr) (s t : State), i.isBus = false → s.gateHeld = true → s.gateOwner ≠ s.requester → exec i s = .next t →
    SameTransport s t

/-! ### The whole machine -/

/-- 60_exceptions R210: the status numbers. R211, R212, R213: every decoded command is rejected exactly where the table says, with the first status that
applies and nothing changed; a command that is not rejected adds no rejection, and no command is ever refused. -/
def Obligations.CommandsRejectByPriority : Prop :=
  (Status.ok.code = 0x00 ∧ Status.illegal.code = 0x01 ∧ Status.length.code = 0x02 ∧ Status.operand.code = 0x03 ∧
    Status.state.code = 0x04 ∧ Status.notInit.code = 0x05 ∧ Status.denied.code = 0x06) ∧
  ∀ (i : Instr) (s : State), i.isBus = false →
    (∀ e : Status, rejection i s = some e → exec i s = .next (s.answer e 0)) ∧
    (rejection i s = none → ∀ t : State, exec i s = .next t → t.resps = s.resps ∨ ∃ v : Word, t.resps = s.resps ++ [⟨.ok, v⟩]) ∧
    (∀ r : Refusal, exec i s ≠ .refused r)

/-- 30_encoding R87: every command yields exactly one response, owed while a delay hold is open; no other step yields one. -/
def Obligations.OneResponsePerCommand : Prop :=
  ∀ s t : State, step s = .next t →
    t.responses = s.responses + (if s.quiet ∧ s.dlyActive = false ∧ s.agenda.head?.map Label.isCmd = some true then 1 else 0)

/-- 10_state R51, R52, R53, 70_reset_and_hazards R233: no step changes a parameter, and the histories only grow. -/
def Obligations.ParametersFixedHistoriesGrow : Prop :=
  ∀ s t : State, step s = .next t →
    t.cfg = s.cfg ∧ s.trace <+: t.trace ∧ s.wire <+: t.wire ∧ s.resps <+: t.resps

/-- 10_state R54, 70_reset_and_hazards R231: what reset leaves, for any parameters and every value of what it leaves unspecified. The
responses and the agenda are the model's own fields (log 7, log 4) and are empty. That `State.reset` is one of these states, under the
parameters that 00_scope R7 gives as defaults, is the model's reading (log 3, DEDUCED). -/
def Obligations.ResetLeavesTabledValues : Prop :=
  ∀ (c : Config) (u : Unspecified),
    (State.resetWith c u).tbCount = 0 ∧ (State.resetWith c u).tbRun = false ∧ (State.resetWith c u).dlyActive = false ∧
    (State.resetWith c u).i2cInited = false ∧ (State.resetWith c u).i2cCbEn = 0 ∧ (State.resetWith c u).i2cAddr = 0 ∧
    (State.resetWith c u).i2cBusy = false ∧ (State.resetWith c u).i2cError = false ∧ (State.resetWith c u).i2cPhase = .idle ∧
    (State.resetWith c u).i2cDir = .transmit ∧ (State.resetWith c u).i2cLen = 0 ∧ (State.resetWith c u).i2cIdx = 0 ∧
    (State.resetWith c u).i2cToCnt = 0 ∧ (State.resetWith c u).i2cTxlen = 0 ∧ (State.resetWith c u).i2cRxlen = 0 ∧
    (State.resetWith c u).i2cErrHead = 0 ∧ (State.resetWith c u).i2cErrCount = 0 ∧ (State.resetWith c u).ipI2c = false ∧
    (State.resetWith c u).ipTick = false ∧ (State.resetWith c u).i2cEv = .none ∧ (State.resetWith c u).i2cEvData = 0 ∧
    (State.resetWith c u).schSlot = 0 ∧ (State.resetWith c u).schRunning = false ∧ (State.resetWith c u).schInPoll = false ∧
    (State.resetWith c u).gateHeld = false ∧ (State.resetWith c u).gateOwner = 0 ∧ (State.resetWith c u).trace = [] ∧
    (State.resetWith c u).wire = [] ∧ (State.resetWith c u).cfg = c ∧ (State.resetWith c u).resps = [] ∧
    (State.resetWith c u).agenda = [] ∧ ∃ w : Unspecified, State.reset = State.resetWith Config.default w

/-- Every space is one function of its bytes: two canonical contents that read alike are the same data (the model's memory form;
20_memory R60). -/
def Obligations.EqualReadsEqualMemories : Prop :=
  ∀ m n : Memory, m.wf = true → n.wf = true → (∀ i : Nat, m.read i = n.read i) → m = n

/-- The invariant and the wire's invariant hold at reset, under any parameters that 00_scope R7 admits, any unspecified contents,
any agenda; and so they do at `State.reset`. -/
def Obligations.InvariantHoldsAtReset : Prop :=
  (∀ (c : Config) (u : Unspecified) (ls : List Label), c.wf → u.fits c →
    State.Inv { State.resetWith c u with agenda := ls } ∧ State.WireInv { State.resetWith c u with agenda := ls }) ∧
  State.reset.Inv ∧ State.reset.WireInv

/-- From every state that meets the invariant, a step that answers a next state keeps it (10_state R49 and the ranges of R22 to R45). -/
def Obligations.InvariantKeptByEveryStep : Prop :=
  ∀ s t : State, s.Inv → step s = .next t → t.Inv

/-- No state that meets the invariant faults: every index a rule uses exists (20_memory R77). The only stop is a bus label whose
bytes are none of the five records (log 14). -/
def Obligations.InvariantStatesNeverFault : Prop :=
  ∀ s : State, s.Inv → (∀ f : Fault, step s ≠ .fault f) ∧
    (∀ r : Refusal, step s = .refused r → ∃ b : Record, r = .notABusRecord b ∧ (.bus b ∈ s.agenda ∨ .tickBus b ∈ s.agenda))

/-- 10_state R49: its clauses hold in every state that a run from power-on reaches, whatever the environment does. -/
def Obligations.ReachableStatesMeetR49 : Prop :=
  ∀ (c : Config) (u : Unspecified) (s : State), c.wf → u.fits c → Reachable c u s → s.R49
end

