-- ==== Sys2Proof/Laws/State.lean ====
section
/-! SUPPORT. One lemma per field and update of the state: what an update writes, and that it writes nothing else. -/

namespace Sys2Proof.Machine.State

section respond
variable (s : State) (v : Word)
@[simp] theorem respond_cfg : (s.respond v).cfg = s.cfg := rfl
@[simp] theorem respond_tbCount : (s.respond v).tbCount = s.tbCount := rfl
@[simp] theorem respond_tbRun : (s.respond v).tbRun = s.tbRun := rfl
@[simp] theorem respond_frCount : (s.respond v).frCount = s.frCount := rfl
@[simp] theorem respond_dlyActive : (s.respond v).dlyActive = s.dlyActive := rfl
@[simp] theorem respond_dlyT0 : (s.respond v).dlyT0 = s.dlyT0 := rfl
@[simp] theorem respond_dlyNeed : (s.respond v).dlyNeed = s.dlyNeed := rfl
@[simp] theorem respond_i2cInited : (s.respond v).i2cInited = s.i2cInited := rfl
@[simp] theorem respond_i2cCbEn : (s.respond v).i2cCbEn = s.i2cCbEn := rfl
@[simp] theorem respond_i2cAddr : (s.respond v).i2cAddr = s.i2cAddr := rfl
@[simp] theorem respond_i2cBusy : (s.respond v).i2cBusy = s.i2cBusy := rfl
@[simp] theorem respond_i2cError : (s.respond v).i2cError = s.i2cError := rfl
@[simp] theorem respond_i2cPhase : (s.respond v).i2cPhase = s.i2cPhase := rfl
@[simp] theorem respond_i2cDir : (s.respond v).i2cDir = s.i2cDir := rfl
@[simp] theorem respond_i2cLen : (s.respond v).i2cLen = s.i2cLen := rfl
@[simp] theorem respond_i2cIdx : (s.respond v).i2cIdx = s.i2cIdx := rfl
@[simp] theorem respond_i2cToCnt : (s.respond v).i2cToCnt = s.i2cToCnt := rfl
@[simp] theorem respond_i2cTxbuf : (s.respond v).i2cTxbuf = s.i2cTxbuf := rfl
@[simp] theorem respond_i2cTxlen : (s.respond v).i2cTxlen = s.i2cTxlen := rfl
@[simp] theorem respond_i2cRxbuf : (s.respond v).i2cRxbuf = s.i2cRxbuf := rfl
@[simp] theorem respond_i2cRxlen : (s.respond v).i2cRxlen = s.i2cRxlen := rfl
@[simp] theorem respond_i2cErrlog : (s.respond v).i2cErrlog = s.i2cErrlog := rfl
@[simp] theorem respond_i2cErrHead : (s.respond v).i2cErrHead = s.i2cErrHead := rfl
@[simp] theorem respond_i2cErrCount : (s.respond v).i2cErrCount = s.i2cErrCount := rfl
@[simp] theorem respond_ipI2c : (s.respond v).ipI2c = s.ipI2c := rfl
@[simp] theorem respond_i2cEv : (s.respond v).i2cEv = s.i2cEv := rfl
@[simp] theorem respond_i2cEvData : (s.respond v).i2cEvData = s.i2cEvData := rfl
@[simp] theorem respond_ipTick : (s.respond v).ipTick = s.ipTick := rfl
@[simp] theorem respond_schSlot : (s.respond v).schSlot = s.schSlot := rfl
@[simp] theorem respond_schRunning : (s.respond v).schRunning = s.schRunning := rfl
@[simp] theorem respond_schInPoll : (s.respond v).schInPoll = s.schInPoll := rfl
@[simp] theorem respond_gateHeld : (s.respond v).gateHeld = s.gateHeld := rfl
@[simp] theorem respond_gateOwner : (s.respond v).gateOwner = s.gateOwner := rfl
@[simp] theorem respond_trace : (s.respond v).trace = s.trace := rfl
@[simp] theorem respond_wire : (s.respond v).wire = s.wire := rfl
@[simp] theorem respond_resps : (s.respond v).resps = s.resps ++ [⟨.ok, v⟩] := rfl
@[simp] theorem respond_agenda : (s.respond v).agenda = s.agenda := rfl
end respond

section reject
variable (s : State) (e : Status)
@[simp] theorem reject_cfg : (s.reject e).cfg = s.cfg := rfl
@[simp] theorem reject_tbCount : (s.reject e).tbCount = s.tbCount := rfl
@[simp] theorem reject_tbRun : (s.reject e).tbRun = s.tbRun := rfl
@[simp] theorem reject_frCount : (s.reject e).frCount = s.frCount := rfl
@[simp] theorem reject_dlyActive : (s.reject e).dlyActive = s.dlyActive := rfl
@[simp] theorem reject_dlyT0 : (s.reject e).dlyT0 = s.dlyT0 := rfl
@[simp] theorem reject_dlyNeed : (s.reject e).dlyNeed = s.dlyNeed := rfl
@[simp] theorem reject_i2cInited : (s.reject e).i2cInited = s.i2cInited := rfl
@[simp] theorem reject_i2cCbEn : (s.reject e).i2cCbEn = s.i2cCbEn := rfl
@[simp] theorem reject_i2cAddr : (s.reject e).i2cAddr = s.i2cAddr := rfl
@[simp] theorem reject_i2cBusy : (s.reject e).i2cBusy = s.i2cBusy := rfl
@[simp] theorem reject_i2cError : (s.reject e).i2cError = s.i2cError := rfl
@[simp] theorem reject_i2cPhase : (s.reject e).i2cPhase = s.i2cPhase := rfl
@[simp] theorem reject_i2cDir : (s.reject e).i2cDir = s.i2cDir := rfl
@[simp] theorem reject_i2cLen : (s.reject e).i2cLen = s.i2cLen := rfl
@[simp] theorem reject_i2cIdx : (s.reject e).i2cIdx = s.i2cIdx := rfl
@[simp] theorem reject_i2cToCnt : (s.reject e).i2cToCnt = s.i2cToCnt := rfl
@[simp] theorem reject_i2cTxbuf : (s.reject e).i2cTxbuf = s.i2cTxbuf := rfl
@[simp] theorem reject_i2cTxlen : (s.reject e).i2cTxlen = s.i2cTxlen := rfl
@[simp] theorem reject_i2cRxbuf : (s.reject e).i2cRxbuf = s.i2cRxbuf := rfl
@[simp] theorem reject_i2cRxlen : (s.reject e).i2cRxlen = s.i2cRxlen := rfl
@[simp] theorem reject_i2cErrlog : (s.reject e).i2cErrlog = s.i2cErrlog := rfl
@[simp] theorem reject_i2cErrHead : (s.reject e).i2cErrHead = s.i2cErrHead := rfl
@[simp] theorem reject_i2cErrCount : (s.reject e).i2cErrCount = s.i2cErrCount := rfl
@[simp] theorem reject_ipI2c : (s.reject e).ipI2c = s.ipI2c := rfl
@[simp] theorem reject_i2cEv : (s.reject e).i2cEv = s.i2cEv := rfl
@[simp] theorem reject_i2cEvData : (s.reject e).i2cEvData = s.i2cEvData := rfl
@[simp] theorem reject_ipTick : (s.reject e).ipTick = s.ipTick := rfl
@[simp] theorem reject_schSlot : (s.reject e).schSlot = s.schSlot := rfl
@[simp] theorem reject_schRunning : (s.reject e).schRunning = s.schRunning := rfl
@[simp] theorem reject_schInPoll : (s.reject e).schInPoll = s.schInPoll := rfl
@[simp] theorem reject_gateHeld : (s.reject e).gateHeld = s.gateHeld := rfl
@[simp] theorem reject_gateOwner : (s.reject e).gateOwner = s.gateOwner := rfl
@[simp] theorem reject_trace : (s.reject e).trace = s.trace := rfl
@[simp] theorem reject_wire : (s.reject e).wire = s.wire := rfl
@[simp] theorem reject_resps : (s.reject e).resps = s.resps ++ [⟨e, 0⟩] := rfl
@[simp] theorem reject_agenda : (s.reject e).agenda = s.agenda := rfl
end reject

section drive
variable (s : State) (w : List WireSym)
@[simp] theorem drive_cfg : (s.drive w).cfg = s.cfg := rfl
@[simp] theorem drive_tbCount : (s.drive w).tbCount = s.tbCount := rfl
@[simp] theorem drive_tbRun : (s.drive w).tbRun = s.tbRun := rfl
@[simp] theorem drive_frCount : (s.drive w).frCount = s.frCount := rfl
@[simp] theorem drive_dlyActive : (s.drive w).dlyActive = s.dlyActive := rfl
@[simp] theorem drive_dlyT0 : (s.drive w).dlyT0 = s.dlyT0 := rfl
@[simp] theorem drive_dlyNeed : (s.drive w).dlyNeed = s.dlyNeed := rfl
@[simp] theorem drive_i2cInited : (s.drive w).i2cInited = s.i2cInited := rfl
@[simp] theorem drive_i2cCbEn : (s.drive w).i2cCbEn = s.i2cCbEn := rfl
@[simp] theorem drive_i2cAddr : (s.drive w).i2cAddr = s.i2cAddr := rfl
@[simp] theorem drive_i2cBusy : (s.drive w).i2cBusy = s.i2cBusy := rfl
@[simp] theorem drive_i2cError : (s.drive w).i2cError = s.i2cError := rfl
@[simp] theorem drive_i2cPhase : (s.drive w).i2cPhase = s.i2cPhase := rfl
@[simp] theorem drive_i2cDir : (s.drive w).i2cDir = s.i2cDir := rfl
@[simp] theorem drive_i2cLen : (s.drive w).i2cLen = s.i2cLen := rfl
@[simp] theorem drive_i2cIdx : (s.drive w).i2cIdx = s.i2cIdx := rfl
@[simp] theorem drive_i2cToCnt : (s.drive w).i2cToCnt = s.i2cToCnt := rfl
@[simp] theorem drive_i2cTxbuf : (s.drive w).i2cTxbuf = s.i2cTxbuf := rfl
@[simp] theorem drive_i2cTxlen : (s.drive w).i2cTxlen = s.i2cTxlen := rfl
@[simp] theorem drive_i2cRxbuf : (s.drive w).i2cRxbuf = s.i2cRxbuf := rfl
@[simp] theorem drive_i2cRxlen : (s.drive w).i2cRxlen = s.i2cRxlen := rfl
@[simp] theorem drive_i2cErrlog : (s.drive w).i2cErrlog = s.i2cErrlog := rfl
@[simp] theorem drive_i2cErrHead : (s.drive w).i2cErrHead = s.i2cErrHead := rfl
@[simp] theorem drive_i2cErrCount : (s.drive w).i2cErrCount = s.i2cErrCount := rfl
@[simp] theorem drive_ipI2c : (s.drive w).ipI2c = s.ipI2c := rfl
@[simp] theorem drive_i2cEv : (s.drive w).i2cEv = s.i2cEv := rfl
@[simp] theorem drive_i2cEvData : (s.drive w).i2cEvData = s.i2cEvData := rfl
@[simp] theorem drive_ipTick : (s.drive w).ipTick = s.ipTick := rfl
@[simp] theorem drive_schSlot : (s.drive w).schSlot = s.schSlot := rfl
@[simp] theorem drive_schRunning : (s.drive w).schRunning = s.schRunning := rfl
@[simp] theorem drive_schInPoll : (s.drive w).schInPoll = s.schInPoll := rfl
@[simp] theorem drive_gateHeld : (s.drive w).gateHeld = s.gateHeld := rfl
@[simp] theorem drive_gateOwner : (s.drive w).gateOwner = s.gateOwner := rfl
@[simp] theorem drive_trace : (s.drive w).trace = s.trace := rfl
@[simp] theorem drive_wire : (s.drive w).wire = s.wire ++ w := rfl
@[simp] theorem drive_resps : (s.drive w).resps = s.resps := rfl
@[simp] theorem drive_agenda : (s.drive w).agenda = s.agenda := rfl
end drive

section emit
variable (s : State) (e : TraceEvent)
@[simp] theorem emit_cfg : (s.emit e).cfg = s.cfg := rfl
@[simp] theorem emit_tbCount : (s.emit e).tbCount = s.tbCount := rfl
@[simp] theorem emit_tbRun : (s.emit e).tbRun = s.tbRun := rfl
@[simp] theorem emit_frCount : (s.emit e).frCount = s.frCount := rfl
@[simp] theorem emit_dlyActive : (s.emit e).dlyActive = s.dlyActive := rfl
@[simp] theorem emit_dlyT0 : (s.emit e).dlyT0 = s.dlyT0 := rfl
@[simp] theorem emit_dlyNeed : (s.emit e).dlyNeed = s.dlyNeed := rfl
@[simp] theorem emit_i2cInited : (s.emit e).i2cInited = s.i2cInited := rfl
@[simp] theorem emit_i2cCbEn : (s.emit e).i2cCbEn = s.i2cCbEn := rfl
@[simp] theorem emit_i2cAddr : (s.emit e).i2cAddr = s.i2cAddr := rfl
@[simp] theorem emit_i2cBusy : (s.emit e).i2cBusy = s.i2cBusy := rfl
@[simp] theorem emit_i2cError : (s.emit e).i2cError = s.i2cError := rfl
@[simp] theorem emit_i2cPhase : (s.emit e).i2cPhase = s.i2cPhase := rfl
@[simp] theorem emit_i2cDir : (s.emit e).i2cDir = s.i2cDir := rfl
@[simp] theorem emit_i2cLen : (s.emit e).i2cLen = s.i2cLen := rfl
@[simp] theorem emit_i2cIdx : (s.emit e).i2cIdx = s.i2cIdx := rfl
@[simp] theorem emit_i2cToCnt : (s.emit e).i2cToCnt = s.i2cToCnt := rfl
@[simp] theorem emit_i2cTxbuf : (s.emit e).i2cTxbuf = s.i2cTxbuf := rfl
@[simp] theorem emit_i2cTxlen : (s.emit e).i2cTxlen = s.i2cTxlen := rfl
@[simp] theorem emit_i2cRxbuf : (s.emit e).i2cRxbuf = s.i2cRxbuf := rfl
@[simp] theorem emit_i2cRxlen : (s.emit e).i2cRxlen = s.i2cRxlen := rfl
@[simp] theorem emit_i2cErrlog : (s.emit e).i2cErrlog = s.i2cErrlog := rfl
@[simp] theorem emit_i2cErrHead : (s.emit e).i2cErrHead = s.i2cErrHead := rfl
@[simp] theorem emit_i2cErrCount : (s.emit e).i2cErrCount = s.i2cErrCount := rfl
@[simp] theorem emit_ipI2c : (s.emit e).ipI2c = s.ipI2c := rfl
@[simp] theorem emit_i2cEv : (s.emit e).i2cEv = s.i2cEv := rfl
@[simp] theorem emit_i2cEvData : (s.emit e).i2cEvData = s.i2cEvData := rfl
@[simp] theorem emit_ipTick : (s.emit e).ipTick = s.ipTick := rfl
@[simp] theorem emit_schSlot : (s.emit e).schSlot = s.schSlot := rfl
@[simp] theorem emit_schRunning : (s.emit e).schRunning = s.schRunning := rfl
@[simp] theorem emit_schInPoll : (s.emit e).schInPoll = s.schInPoll := rfl
@[simp] theorem emit_gateHeld : (s.emit e).gateHeld = s.gateHeld := rfl
@[simp] theorem emit_gateOwner : (s.emit e).gateOwner = s.gateOwner := rfl
@[simp] theorem emit_trace : (s.emit e).trace = s.trace ++ [e] := rfl
@[simp] theorem emit_wire : (s.emit e).wire = s.wire := rfl
@[simp] theorem emit_resps : (s.emit e).resps = s.resps := rfl
@[simp] theorem emit_agenda : (s.emit e).agenda = s.agenda := rfl
end emit

section postI2c
variable (s : State) (e : Event) (d : Byte)
@[simp] theorem postI2c_cfg : (s.postI2c e d).cfg = s.cfg := rfl
@[simp] theorem postI2c_tbCount : (s.postI2c e d).tbCount = s.tbCount := rfl
@[simp] theorem postI2c_tbRun : (s.postI2c e d).tbRun = s.tbRun := rfl
@[simp] theorem postI2c_frCount : (s.postI2c e d).frCount = s.frCount := rfl
@[simp] theorem postI2c_dlyActive : (s.postI2c e d).dlyActive = s.dlyActive := rfl
@[simp] theorem postI2c_dlyT0 : (s.postI2c e d).dlyT0 = s.dlyT0 := rfl
@[simp] theorem postI2c_dlyNeed : (s.postI2c e d).dlyNeed = s.dlyNeed := rfl
@[simp] theorem postI2c_i2cInited : (s.postI2c e d).i2cInited = s.i2cInited := rfl
@[simp] theorem postI2c_i2cCbEn : (s.postI2c e d).i2cCbEn = s.i2cCbEn := rfl
@[simp] theorem postI2c_i2cAddr : (s.postI2c e d).i2cAddr = s.i2cAddr := rfl
@[simp] theorem postI2c_i2cBusy : (s.postI2c e d).i2cBusy = s.i2cBusy := rfl
@[simp] theorem postI2c_i2cError : (s.postI2c e d).i2cError = s.i2cError := rfl
@[simp] theorem postI2c_i2cPhase : (s.postI2c e d).i2cPhase = s.i2cPhase := rfl
@[simp] theorem postI2c_i2cDir : (s.postI2c e d).i2cDir = s.i2cDir := rfl
@[simp] theorem postI2c_i2cLen : (s.postI2c e d).i2cLen = s.i2cLen := rfl
@[simp] theorem postI2c_i2cIdx : (s.postI2c e d).i2cIdx = s.i2cIdx := rfl
@[simp] theorem postI2c_i2cToCnt : (s.postI2c e d).i2cToCnt = s.i2cToCnt := rfl
@[simp] theorem postI2c_i2cTxbuf : (s.postI2c e d).i2cTxbuf = s.i2cTxbuf := rfl
@[simp] theorem postI2c_i2cTxlen : (s.postI2c e d).i2cTxlen = s.i2cTxlen := rfl
@[simp] theorem postI2c_i2cRxbuf : (s.postI2c e d).i2cRxbuf = s.i2cRxbuf := rfl
@[simp] theorem postI2c_i2cRxlen : (s.postI2c e d).i2cRxlen = s.i2cRxlen := rfl
@[simp] theorem postI2c_i2cErrlog : (s.postI2c e d).i2cErrlog = s.i2cErrlog := rfl
@[simp] theorem postI2c_i2cErrHead : (s.postI2c e d).i2cErrHead = s.i2cErrHead := rfl
@[simp] theorem postI2c_i2cErrCount : (s.postI2c e d).i2cErrCount = s.i2cErrCount := rfl
@[simp] theorem postI2c_ipI2c : (s.postI2c e d).ipI2c = true := rfl
@[simp] theorem postI2c_i2cEv : (s.postI2c e d).i2cEv = e := rfl
@[simp] theorem postI2c_i2cEvData : (s.postI2c e d).i2cEvData = d := rfl
@[simp] theorem postI2c_ipTick : (s.postI2c e d).ipTick = s.ipTick := rfl
@[simp] theorem postI2c_schSlot : (s.postI2c e d).schSlot = s.schSlot := rfl
@[simp] theorem postI2c_schRunning : (s.postI2c e d).schRunning = s.schRunning := rfl
@[simp] theorem postI2c_schInPoll : (s.postI2c e d).schInPoll = s.schInPoll := rfl
@[simp] theorem postI2c_gateHeld : (s.postI2c e d).gateHeld = s.gateHeld := rfl
@[simp] theorem postI2c_gateOwner : (s.postI2c e d).gateOwner = s.gateOwner := rfl
@[simp] theorem postI2c_trace : (s.postI2c e d).trace = s.trace := rfl
@[simp] theorem postI2c_wire : (s.postI2c e d).wire = s.wire := rfl
@[simp] theorem postI2c_resps : (s.postI2c e d).resps = s.resps := rfl
@[simp] theorem postI2c_agenda : (s.postI2c e d).agenda = s.agenda := rfl
end postI2c

section postTick
variable (s : State)
@[simp] theorem postTick_cfg : s.postTick.cfg = s.cfg := rfl
@[simp] theorem postTick_tbCount : s.postTick.tbCount = s.tbCount := rfl
@[simp] theorem postTick_tbRun : s.postTick.tbRun = s.tbRun := rfl
@[simp] theorem postTick_frCount : s.postTick.frCount = s.frCount := rfl
@[simp] theorem postTick_dlyActive : s.postTick.dlyActive = s.dlyActive := rfl
@[simp] theorem postTick_dlyT0 : s.postTick.dlyT0 = s.dlyT0 := rfl
@[simp] theorem postTick_dlyNeed : s.postTick.dlyNeed = s.dlyNeed := rfl
@[simp] theorem postTick_i2cInited : s.postTick.i2cInited = s.i2cInited := rfl
@[simp] theorem postTick_i2cCbEn : s.postTick.i2cCbEn = s.i2cCbEn := rfl
@[simp] theorem postTick_i2cAddr : s.postTick.i2cAddr = s.i2cAddr := rfl
@[simp] theorem postTick_i2cBusy : s.postTick.i2cBusy = s.i2cBusy := rfl
@[simp] theorem postTick_i2cError : s.postTick.i2cError = s.i2cError := rfl
@[simp] theorem postTick_i2cPhase : s.postTick.i2cPhase = s.i2cPhase := rfl
@[simp] theorem postTick_i2cDir : s.postTick.i2cDir = s.i2cDir := rfl
@[simp] theorem postTick_i2cLen : s.postTick.i2cLen = s.i2cLen := rfl
@[simp] theorem postTick_i2cIdx : s.postTick.i2cIdx = s.i2cIdx := rfl
@[simp] theorem postTick_i2cToCnt : s.postTick.i2cToCnt = s.i2cToCnt := rfl
@[simp] theorem postTick_i2cTxbuf : s.postTick.i2cTxbuf = s.i2cTxbuf := rfl
@[simp] theorem postTick_i2cTxlen : s.postTick.i2cTxlen = s.i2cTxlen := rfl
@[simp] theorem postTick_i2cRxbuf : s.postTick.i2cRxbuf = s.i2cRxbuf := rfl
@[simp] theorem postTick_i2cRxlen : s.postTick.i2cRxlen = s.i2cRxlen := rfl
@[simp] theorem postTick_i2cErrlog : s.postTick.i2cErrlog = s.i2cErrlog := rfl
@[simp] theorem postTick_i2cErrHead : s.postTick.i2cErrHead = s.i2cErrHead := rfl
@[simp] theorem postTick_i2cErrCount : s.postTick.i2cErrCount = s.i2cErrCount := rfl
@[simp] theorem postTick_ipI2c : s.postTick.ipI2c = s.ipI2c := rfl
@[simp] theorem postTick_i2cEv : s.postTick.i2cEv = s.i2cEv := rfl
@[simp] theorem postTick_i2cEvData : s.postTick.i2cEvData = s.i2cEvData := rfl
@[simp] theorem postTick_ipTick : s.postTick.ipTick = true := rfl
@[simp] theorem postTick_schSlot : s.postTick.schSlot = s.schSlot := rfl
@[simp] theorem postTick_schRunning : s.postTick.schRunning = s.schRunning := rfl
@[simp] theorem postTick_schInPoll : s.postTick.schInPoll = s.schInPoll := rfl
@[simp] theorem postTick_gateHeld : s.postTick.gateHeld = s.gateHeld := rfl
@[simp] theorem postTick_gateOwner : s.postTick.gateOwner = s.gateOwner := rfl
@[simp] theorem postTick_trace : s.postTick.trace = s.trace := rfl
@[simp] theorem postTick_wire : s.postTick.wire = s.wire := rfl
@[simp] theorem postTick_resps : s.postTick.resps = s.resps := rfl
@[simp] theorem postTick_agenda : s.postTick.agenda = s.agenda := rfl
end postTick

section clearI2cRequest
variable (s : State)
@[simp] theorem clearI2cRequest_cfg : s.clearI2cRequest.cfg = s.cfg := rfl
@[simp] theorem clearI2cRequest_tbCount : s.clearI2cRequest.tbCount = s.tbCount := rfl
@[simp] theorem clearI2cRequest_tbRun : s.clearI2cRequest.tbRun = s.tbRun := rfl
@[simp] theorem clearI2cRequest_frCount : s.clearI2cRequest.frCount = s.frCount := rfl
@[simp] theorem clearI2cRequest_dlyActive : s.clearI2cRequest.dlyActive = s.dlyActive := rfl
@[simp] theorem clearI2cRequest_dlyT0 : s.clearI2cRequest.dlyT0 = s.dlyT0 := rfl
@[simp] theorem clearI2cRequest_dlyNeed : s.clearI2cRequest.dlyNeed = s.dlyNeed := rfl
@[simp] theorem clearI2cRequest_i2cInited : s.clearI2cRequest.i2cInited = s.i2cInited := rfl
@[simp] theorem clearI2cRequest_i2cCbEn : s.clearI2cRequest.i2cCbEn = s.i2cCbEn := rfl
@[simp] theorem clearI2cRequest_i2cAddr : s.clearI2cRequest.i2cAddr = s.i2cAddr := rfl
@[simp] theorem clearI2cRequest_i2cBusy : s.clearI2cRequest.i2cBusy = s.i2cBusy := rfl
@[simp] theorem clearI2cRequest_i2cError : s.clearI2cRequest.i2cError = s.i2cError := rfl
@[simp] theorem clearI2cRequest_i2cPhase : s.clearI2cRequest.i2cPhase = s.i2cPhase := rfl
@[simp] theorem clearI2cRequest_i2cDir : s.clearI2cRequest.i2cDir = s.i2cDir := rfl
@[simp] theorem clearI2cRequest_i2cLen : s.clearI2cRequest.i2cLen = s.i2cLen := rfl
@[simp] theorem clearI2cRequest_i2cIdx : s.clearI2cRequest.i2cIdx = s.i2cIdx := rfl
@[simp] theorem clearI2cRequest_i2cToCnt : s.clearI2cRequest.i2cToCnt = s.i2cToCnt := rfl
@[simp] theorem clearI2cRequest_i2cTxbuf : s.clearI2cRequest.i2cTxbuf = s.i2cTxbuf := rfl
@[simp] theorem clearI2cRequest_i2cTxlen : s.clearI2cRequest.i2cTxlen = s.i2cTxlen := rfl
@[simp] theorem clearI2cRequest_i2cRxbuf : s.clearI2cRequest.i2cRxbuf = s.i2cRxbuf := rfl
@[simp] theorem clearI2cRequest_i2cRxlen : s.clearI2cRequest.i2cRxlen = s.i2cRxlen := rfl
@[simp] theorem clearI2cRequest_i2cErrlog : s.clearI2cRequest.i2cErrlog = s.i2cErrlog := rfl
@[simp] theorem clearI2cRequest_i2cErrHead : s.clearI2cRequest.i2cErrHead = s.i2cErrHead := rfl
@[simp] theorem clearI2cRequest_i2cErrCount : s.clearI2cRequest.i2cErrCount = s.i2cErrCount := rfl
@[simp] theorem clearI2cRequest_ipI2c : s.clearI2cRequest.ipI2c = false := rfl
@[simp] theorem clearI2cRequest_i2cEv : s.clearI2cRequest.i2cEv = .none := rfl
@[simp] theorem clearI2cRequest_i2cEvData : s.clearI2cRequest.i2cEvData = 0 := rfl
@[simp] theorem clearI2cRequest_ipTick : s.clearI2cRequest.ipTick = s.ipTick := rfl
@[simp] theorem clearI2cRequest_schSlot : s.clearI2cRequest.schSlot = s.schSlot := rfl
@[simp] theorem clearI2cRequest_schRunning : s.clearI2cRequest.schRunning = s.schRunning := rfl
@[simp] theorem clearI2cRequest_schInPoll : s.clearI2cRequest.schInPoll = s.schInPoll := rfl
@[simp] theorem clearI2cRequest_gateHeld : s.clearI2cRequest.gateHeld = s.gateHeld := rfl
@[simp] theorem clearI2cRequest_gateOwner : s.clearI2cRequest.gateOwner = s.gateOwner := rfl
@[simp] theorem clearI2cRequest_trace : s.clearI2cRequest.trace = s.trace := rfl
@[simp] theorem clearI2cRequest_wire : s.clearI2cRequest.wire = s.wire := rfl
@[simp] theorem clearI2cRequest_resps : s.clearI2cRequest.resps = s.resps := rfl
@[simp] theorem clearI2cRequest_agenda : s.clearI2cRequest.agenda = s.agenda := rfl
end clearI2cRequest

section flagsStart
variable (s : State)
@[simp] theorem flagsStart_cfg : s.flagsStart.cfg = s.cfg := rfl
@[simp] theorem flagsStart_tbCount : s.flagsStart.tbCount = s.tbCount := rfl
@[simp] theorem flagsStart_tbRun : s.flagsStart.tbRun = s.tbRun := rfl
@[simp] theorem flagsStart_frCount : s.flagsStart.frCount = s.frCount := rfl
@[simp] theorem flagsStart_dlyActive : s.flagsStart.dlyActive = s.dlyActive := rfl
@[simp] theorem flagsStart_dlyT0 : s.flagsStart.dlyT0 = s.dlyT0 := rfl
@[simp] theorem flagsStart_dlyNeed : s.flagsStart.dlyNeed = s.dlyNeed := rfl
@[simp] theorem flagsStart_i2cInited : s.flagsStart.i2cInited = s.i2cInited := rfl
@[simp] theorem flagsStart_i2cCbEn : s.flagsStart.i2cCbEn = s.i2cCbEn := rfl
@[simp] theorem flagsStart_i2cAddr : s.flagsStart.i2cAddr = s.i2cAddr := rfl
@[simp] theorem flagsStart_i2cBusy : s.flagsStart.i2cBusy = true := rfl
@[simp] theorem flagsStart_i2cError : s.flagsStart.i2cError = s.i2cError := rfl
@[simp] theorem flagsStart_i2cPhase : s.flagsStart.i2cPhase = s.i2cPhase := rfl
@[simp] theorem flagsStart_i2cDir : s.flagsStart.i2cDir = s.i2cDir := rfl
@[simp] theorem flagsStart_i2cLen : s.flagsStart.i2cLen = s.i2cLen := rfl
@[simp] theorem flagsStart_i2cIdx : s.flagsStart.i2cIdx = s.i2cIdx := rfl
@[simp] theorem flagsStart_i2cToCnt : s.flagsStart.i2cToCnt = s.i2cToCnt := rfl
@[simp] theorem flagsStart_i2cTxbuf : s.flagsStart.i2cTxbuf = s.i2cTxbuf := rfl
@[simp] theorem flagsStart_i2cTxlen : s.flagsStart.i2cTxlen = s.i2cTxlen := rfl
@[simp] theorem flagsStart_i2cRxbuf : s.flagsStart.i2cRxbuf = s.i2cRxbuf := rfl
@[simp] theorem flagsStart_i2cRxlen : s.flagsStart.i2cRxlen = s.i2cRxlen := rfl
@[simp] theorem flagsStart_i2cErrlog : s.flagsStart.i2cErrlog = s.i2cErrlog := rfl
@[simp] theorem flagsStart_i2cErrHead : s.flagsStart.i2cErrHead = s.i2cErrHead := rfl
@[simp] theorem flagsStart_i2cErrCount : s.flagsStart.i2cErrCount = s.i2cErrCount := rfl
@[simp] theorem flagsStart_ipI2c : s.flagsStart.ipI2c = s.ipI2c := rfl
@[simp] theorem flagsStart_i2cEv : s.flagsStart.i2cEv = s.i2cEv := rfl
@[simp] theorem flagsStart_i2cEvData : s.flagsStart.i2cEvData = s.i2cEvData := rfl
@[simp] theorem flagsStart_ipTick : s.flagsStart.ipTick = s.ipTick := rfl
@[simp] theorem flagsStart_schSlot : s.flagsStart.schSlot = s.schSlot := rfl
@[simp] theorem flagsStart_schRunning : s.flagsStart.schRunning = s.schRunning := rfl
@[simp] theorem flagsStart_schInPoll : s.flagsStart.schInPoll = s.schInPoll := rfl
@[simp] theorem flagsStart_gateHeld : s.flagsStart.gateHeld = s.gateHeld := rfl
@[simp] theorem flagsStart_gateOwner : s.flagsStart.gateOwner = s.gateOwner := rfl
@[simp] theorem flagsStart_trace : s.flagsStart.trace = s.trace := rfl
@[simp] theorem flagsStart_wire : s.flagsStart.wire = s.wire := rfl
@[simp] theorem flagsStart_resps : s.flagsStart.resps = s.resps := rfl
@[simp] theorem flagsStart_agenda : s.flagsStart.agenda = s.agenda := rfl
end flagsStart

section flagsDone
variable (s : State)
@[simp] theorem flagsDone_cfg : s.flagsDone.cfg = s.cfg := rfl
@[simp] theorem flagsDone_tbCount : s.flagsDone.tbCount = s.tbCount := rfl
@[simp] theorem flagsDone_tbRun : s.flagsDone.tbRun = s.tbRun := rfl
@[simp] theorem flagsDone_frCount : s.flagsDone.frCount = s.frCount := rfl
@[simp] theorem flagsDone_dlyActive : s.flagsDone.dlyActive = s.dlyActive := rfl
@[simp] theorem flagsDone_dlyT0 : s.flagsDone.dlyT0 = s.dlyT0 := rfl
@[simp] theorem flagsDone_dlyNeed : s.flagsDone.dlyNeed = s.dlyNeed := rfl
@[simp] theorem flagsDone_i2cInited : s.flagsDone.i2cInited = s.i2cInited := rfl
@[simp] theorem flagsDone_i2cCbEn : s.flagsDone.i2cCbEn = s.i2cCbEn := rfl
@[simp] theorem flagsDone_i2cAddr : s.flagsDone.i2cAddr = s.i2cAddr := rfl
@[simp] theorem flagsDone_i2cBusy : s.flagsDone.i2cBusy = false := rfl
@[simp] theorem flagsDone_i2cError : s.flagsDone.i2cError = s.i2cError := rfl
@[simp] theorem flagsDone_i2cPhase : s.flagsDone.i2cPhase = s.i2cPhase := rfl
@[simp] theorem flagsDone_i2cDir : s.flagsDone.i2cDir = s.i2cDir := rfl
@[simp] theorem flagsDone_i2cLen : s.flagsDone.i2cLen = s.i2cLen := rfl
@[simp] theorem flagsDone_i2cIdx : s.flagsDone.i2cIdx = s.i2cIdx := rfl
@[simp] theorem flagsDone_i2cToCnt : s.flagsDone.i2cToCnt = s.i2cToCnt := rfl
@[simp] theorem flagsDone_i2cTxbuf : s.flagsDone.i2cTxbuf = s.i2cTxbuf := rfl
@[simp] theorem flagsDone_i2cTxlen : s.flagsDone.i2cTxlen = s.i2cTxlen := rfl
@[simp] theorem flagsDone_i2cRxbuf : s.flagsDone.i2cRxbuf = s.i2cRxbuf := rfl
@[simp] theorem flagsDone_i2cRxlen : s.flagsDone.i2cRxlen = s.i2cRxlen := rfl
@[simp] theorem flagsDone_i2cErrlog : s.flagsDone.i2cErrlog = s.i2cErrlog := rfl
@[simp] theorem flagsDone_i2cErrHead : s.flagsDone.i2cErrHead = s.i2cErrHead := rfl
@[simp] theorem flagsDone_i2cErrCount : s.flagsDone.i2cErrCount = s.i2cErrCount := rfl
@[simp] theorem flagsDone_ipI2c : s.flagsDone.ipI2c = s.ipI2c := rfl
@[simp] theorem flagsDone_i2cEv : s.flagsDone.i2cEv = s.i2cEv := rfl
@[simp] theorem flagsDone_i2cEvData : s.flagsDone.i2cEvData = s.i2cEvData := rfl
@[simp] theorem flagsDone_ipTick : s.flagsDone.ipTick = s.ipTick := rfl
@[simp] theorem flagsDone_schSlot : s.flagsDone.schSlot = s.schSlot := rfl
@[simp] theorem flagsDone_schRunning : s.flagsDone.schRunning = s.schRunning := rfl
@[simp] theorem flagsDone_schInPoll : s.flagsDone.schInPoll = s.schInPoll := rfl
@[simp] theorem flagsDone_gateHeld : s.flagsDone.gateHeld = s.gateHeld := rfl
@[simp] theorem flagsDone_gateOwner : s.flagsDone.gateOwner = s.gateOwner := rfl
@[simp] theorem flagsDone_trace : s.flagsDone.trace = s.trace := rfl
@[simp] theorem flagsDone_wire : s.flagsDone.wire = s.wire := rfl
@[simp] theorem flagsDone_resps : s.flagsDone.resps = s.resps := rfl
@[simp] theorem flagsDone_agenda : s.flagsDone.agenda = s.agenda := rfl
end flagsDone

section flagsFault
variable (s : State)
@[simp] theorem flagsFault_cfg : s.flagsFault.cfg = s.cfg := rfl
@[simp] theorem flagsFault_tbCount : s.flagsFault.tbCount = s.tbCount := rfl
@[simp] theorem flagsFault_tbRun : s.flagsFault.tbRun = s.tbRun := rfl
@[simp] theorem flagsFault_frCount : s.flagsFault.frCount = s.frCount := rfl
@[simp] theorem flagsFault_dlyActive : s.flagsFault.dlyActive = s.dlyActive := rfl
@[simp] theorem flagsFault_dlyT0 : s.flagsFault.dlyT0 = s.dlyT0 := rfl
@[simp] theorem flagsFault_dlyNeed : s.flagsFault.dlyNeed = s.dlyNeed := rfl
@[simp] theorem flagsFault_i2cInited : s.flagsFault.i2cInited = s.i2cInited := rfl
@[simp] theorem flagsFault_i2cCbEn : s.flagsFault.i2cCbEn = s.i2cCbEn := rfl
@[simp] theorem flagsFault_i2cAddr : s.flagsFault.i2cAddr = s.i2cAddr := rfl
@[simp] theorem flagsFault_i2cBusy : s.flagsFault.i2cBusy = false := rfl
@[simp] theorem flagsFault_i2cError : s.flagsFault.i2cError = true := rfl
@[simp] theorem flagsFault_i2cPhase : s.flagsFault.i2cPhase = s.i2cPhase := rfl
@[simp] theorem flagsFault_i2cDir : s.flagsFault.i2cDir = s.i2cDir := rfl
@[simp] theorem flagsFault_i2cLen : s.flagsFault.i2cLen = s.i2cLen := rfl
@[simp] theorem flagsFault_i2cIdx : s.flagsFault.i2cIdx = s.i2cIdx := rfl
@[simp] theorem flagsFault_i2cToCnt : s.flagsFault.i2cToCnt = s.i2cToCnt := rfl
@[simp] theorem flagsFault_i2cTxbuf : s.flagsFault.i2cTxbuf = s.i2cTxbuf := rfl
@[simp] theorem flagsFault_i2cTxlen : s.flagsFault.i2cTxlen = s.i2cTxlen := rfl
@[simp] theorem flagsFault_i2cRxbuf : s.flagsFault.i2cRxbuf = s.i2cRxbuf := rfl
@[simp] theorem flagsFault_i2cRxlen : s.flagsFault.i2cRxlen = s.i2cRxlen := rfl
@[simp] theorem flagsFault_i2cErrlog : s.flagsFault.i2cErrlog = s.i2cErrlog := rfl
@[simp] theorem flagsFault_i2cErrHead : s.flagsFault.i2cErrHead = s.i2cErrHead := rfl
@[simp] theorem flagsFault_i2cErrCount : s.flagsFault.i2cErrCount = s.i2cErrCount := rfl
@[simp] theorem flagsFault_ipI2c : s.flagsFault.ipI2c = s.ipI2c := rfl
@[simp] theorem flagsFault_i2cEv : s.flagsFault.i2cEv = s.i2cEv := rfl
@[simp] theorem flagsFault_i2cEvData : s.flagsFault.i2cEvData = s.i2cEvData := rfl
@[simp] theorem flagsFault_ipTick : s.flagsFault.ipTick = s.ipTick := rfl
@[simp] theorem flagsFault_schSlot : s.flagsFault.schSlot = s.schSlot := rfl
@[simp] theorem flagsFault_schRunning : s.flagsFault.schRunning = s.schRunning := rfl
@[simp] theorem flagsFault_schInPoll : s.flagsFault.schInPoll = s.schInPoll := rfl
@[simp] theorem flagsFault_gateHeld : s.flagsFault.gateHeld = s.gateHeld := rfl
@[simp] theorem flagsFault_gateOwner : s.flagsFault.gateOwner = s.gateOwner := rfl
@[simp] theorem flagsFault_trace : s.flagsFault.trace = s.trace := rfl
@[simp] theorem flagsFault_wire : s.flagsFault.wire = s.wire := rfl
@[simp] theorem flagsFault_resps : s.flagsFault.resps = s.resps := rfl
@[simp] theorem flagsFault_agenda : s.flagsFault.agenda = s.agenda := rfl
end flagsFault

section flagsClear
variable (s : State)
@[simp] theorem flagsClear_cfg : s.flagsClear.cfg = s.cfg := rfl
@[simp] theorem flagsClear_tbCount : s.flagsClear.tbCount = s.tbCount := rfl
@[simp] theorem flagsClear_tbRun : s.flagsClear.tbRun = s.tbRun := rfl
@[simp] theorem flagsClear_frCount : s.flagsClear.frCount = s.frCount := rfl
@[simp] theorem flagsClear_dlyActive : s.flagsClear.dlyActive = s.dlyActive := rfl
@[simp] theorem flagsClear_dlyT0 : s.flagsClear.dlyT0 = s.dlyT0 := rfl
@[simp] theorem flagsClear_dlyNeed : s.flagsClear.dlyNeed = s.dlyNeed := rfl
@[simp] theorem flagsClear_i2cInited : s.flagsClear.i2cInited = s.i2cInited := rfl
@[simp] theorem flagsClear_i2cCbEn : s.flagsClear.i2cCbEn = s.i2cCbEn := rfl
@[simp] theorem flagsClear_i2cAddr : s.flagsClear.i2cAddr = s.i2cAddr := rfl
@[simp] theorem flagsClear_i2cBusy : s.flagsClear.i2cBusy = false := rfl
@[simp] theorem flagsClear_i2cError : s.flagsClear.i2cError = false := rfl
@[simp] theorem flagsClear_i2cPhase : s.flagsClear.i2cPhase = s.i2cPhase := rfl
@[simp] theorem flagsClear_i2cDir : s.flagsClear.i2cDir = s.i2cDir := rfl
@[simp] theorem flagsClear_i2cLen : s.flagsClear.i2cLen = s.i2cLen := rfl
@[simp] theorem flagsClear_i2cIdx : s.flagsClear.i2cIdx = s.i2cIdx := rfl
@[simp] theorem flagsClear_i2cToCnt : s.flagsClear.i2cToCnt = s.i2cToCnt := rfl
@[simp] theorem flagsClear_i2cTxbuf : s.flagsClear.i2cTxbuf = s.i2cTxbuf := rfl
@[simp] theorem flagsClear_i2cTxlen : s.flagsClear.i2cTxlen = s.i2cTxlen := rfl
@[simp] theorem flagsClear_i2cRxbuf : s.flagsClear.i2cRxbuf = s.i2cRxbuf := rfl
@[simp] theorem flagsClear_i2cRxlen : s.flagsClear.i2cRxlen = s.i2cRxlen := rfl
@[simp] theorem flagsClear_i2cErrlog : s.flagsClear.i2cErrlog = s.i2cErrlog := rfl
@[simp] theorem flagsClear_i2cErrHead : s.flagsClear.i2cErrHead = s.i2cErrHead := rfl
@[simp] theorem flagsClear_i2cErrCount : s.flagsClear.i2cErrCount = s.i2cErrCount := rfl
@[simp] theorem flagsClear_ipI2c : s.flagsClear.ipI2c = s.ipI2c := rfl
@[simp] theorem flagsClear_i2cEv : s.flagsClear.i2cEv = s.i2cEv := rfl
@[simp] theorem flagsClear_i2cEvData : s.flagsClear.i2cEvData = s.i2cEvData := rfl
@[simp] theorem flagsClear_ipTick : s.flagsClear.ipTick = s.ipTick := rfl
@[simp] theorem flagsClear_schSlot : s.flagsClear.schSlot = s.schSlot := rfl
@[simp] theorem flagsClear_schRunning : s.flagsClear.schRunning = s.schRunning := rfl
@[simp] theorem flagsClear_schInPoll : s.flagsClear.schInPoll = s.schInPoll := rfl
@[simp] theorem flagsClear_gateHeld : s.flagsClear.gateHeld = s.gateHeld := rfl
@[simp] theorem flagsClear_gateOwner : s.flagsClear.gateOwner = s.gateOwner := rfl
@[simp] theorem flagsClear_trace : s.flagsClear.trace = s.trace := rfl
@[simp] theorem flagsClear_wire : s.flagsClear.wire = s.wire := rfl
@[simp] theorem flagsClear_resps : s.flagsClear.resps = s.resps := rfl
@[simp] theorem flagsClear_agenda : s.flagsClear.agenda = s.agenda := rfl
end flagsClear

section clearOperation
variable (s : State)
@[simp] theorem clearOperation_cfg : s.clearOperation.cfg = s.cfg := rfl
@[simp] theorem clearOperation_tbCount : s.clearOperation.tbCount = s.tbCount := rfl
@[simp] theorem clearOperation_tbRun : s.clearOperation.tbRun = s.tbRun := rfl
@[simp] theorem clearOperation_frCount : s.clearOperation.frCount = s.frCount := rfl
@[simp] theorem clearOperation_dlyActive : s.clearOperation.dlyActive = s.dlyActive := rfl
@[simp] theorem clearOperation_dlyT0 : s.clearOperation.dlyT0 = s.dlyT0 := rfl
@[simp] theorem clearOperation_dlyNeed : s.clearOperation.dlyNeed = s.dlyNeed := rfl
@[simp] theorem clearOperation_i2cInited : s.clearOperation.i2cInited = s.i2cInited := rfl
@[simp] theorem clearOperation_i2cCbEn : s.clearOperation.i2cCbEn = s.i2cCbEn := rfl
@[simp] theorem clearOperation_i2cAddr : s.clearOperation.i2cAddr = s.i2cAddr := rfl
@[simp] theorem clearOperation_i2cBusy : s.clearOperation.i2cBusy = false := rfl
@[simp] theorem clearOperation_i2cError : s.clearOperation.i2cError = false := rfl
@[simp] theorem clearOperation_i2cPhase : s.clearOperation.i2cPhase = .idle := rfl
@[simp] theorem clearOperation_i2cDir : s.clearOperation.i2cDir = .transmit := rfl
@[simp] theorem clearOperation_i2cLen : s.clearOperation.i2cLen = 0 := rfl
@[simp] theorem clearOperation_i2cIdx : s.clearOperation.i2cIdx = 0 := rfl
@[simp] theorem clearOperation_i2cToCnt : s.clearOperation.i2cToCnt = 0 := rfl
@[simp] theorem clearOperation_i2cTxbuf : s.clearOperation.i2cTxbuf = s.i2cTxbuf := rfl
@[simp] theorem clearOperation_i2cTxlen : s.clearOperation.i2cTxlen = 0 := rfl
@[simp] theorem clearOperation_i2cRxbuf : s.clearOperation.i2cRxbuf = s.i2cRxbuf := rfl
@[simp] theorem clearOperation_i2cRxlen : s.clearOperation.i2cRxlen = 0 := rfl
@[simp] theorem clearOperation_i2cErrlog : s.clearOperation.i2cErrlog = s.i2cErrlog := rfl
@[simp] theorem clearOperation_i2cErrHead : s.clearOperation.i2cErrHead = s.i2cErrHead := rfl
@[simp] theorem clearOperation_i2cErrCount : s.clearOperation.i2cErrCount = s.i2cErrCount := rfl
@[simp] theorem clearOperation_ipI2c : s.clearOperation.ipI2c = s.ipI2c := rfl
@[simp] theorem clearOperation_i2cEv : s.clearOperation.i2cEv = s.i2cEv := rfl
@[simp] theorem clearOperation_i2cEvData : s.clearOperation.i2cEvData = s.i2cEvData := rfl
@[simp] theorem clearOperation_ipTick : s.clearOperation.ipTick = s.ipTick := rfl
@[simp] theorem clearOperation_schSlot : s.clearOperation.schSlot = s.schSlot := rfl
@[simp] theorem clearOperation_schRunning : s.clearOperation.schRunning = s.schRunning := rfl
@[simp] theorem clearOperation_schInPoll : s.clearOperation.schInPoll = s.schInPoll := rfl
@[simp] theorem clearOperation_gateHeld : s.clearOperation.gateHeld = s.gateHeld := rfl
@[simp] theorem clearOperation_gateOwner : s.clearOperation.gateOwner = s.gateOwner := rfl
@[simp] theorem clearOperation_trace : s.clearOperation.trace = s.trace := rfl
@[simp] theorem clearOperation_wire : s.clearOperation.wire = s.wire := rfl
@[simp] theorem clearOperation_resps : s.clearOperation.resps = s.resps := rfl
@[simp] theorem clearOperation_agenda : s.clearOperation.agenda = s.agenda := rfl
end clearOperation

section startOperation
variable (s : State) (d : Dir) (n : Byte)
@[simp] theorem startOperation_cfg : (s.startOperation d n).cfg = s.cfg := rfl
@[simp] theorem startOperation_tbCount : (s.startOperation d n).tbCount = s.tbCount := rfl
@[simp] theorem startOperation_tbRun : (s.startOperation d n).tbRun = s.tbRun := rfl
@[simp] theorem startOperation_frCount : (s.startOperation d n).frCount = s.frCount := rfl
@[simp] theorem startOperation_dlyActive : (s.startOperation d n).dlyActive = s.dlyActive := rfl
@[simp] theorem startOperation_dlyT0 : (s.startOperation d n).dlyT0 = s.dlyT0 := rfl
@[simp] theorem startOperation_dlyNeed : (s.startOperation d n).dlyNeed = s.dlyNeed := rfl
@[simp] theorem startOperation_i2cInited : (s.startOperation d n).i2cInited = s.i2cInited := rfl
@[simp] theorem startOperation_i2cCbEn : (s.startOperation d n).i2cCbEn = s.i2cCbEn := rfl
@[simp] theorem startOperation_i2cAddr : (s.startOperation d n).i2cAddr = s.i2cAddr := rfl
@[simp] theorem startOperation_i2cBusy : (s.startOperation d n).i2cBusy = true := rfl
@[simp] theorem startOperation_i2cError : (s.startOperation d n).i2cError = s.i2cError := rfl
@[simp] theorem startOperation_i2cPhase : (s.startOperation d n).i2cPhase = .addr := rfl
@[simp] theorem startOperation_i2cDir : (s.startOperation d n).i2cDir = d := rfl
@[simp] theorem startOperation_i2cLen : (s.startOperation d n).i2cLen = n := rfl
@[simp] theorem startOperation_i2cIdx : (s.startOperation d n).i2cIdx = 0 := rfl
@[simp] theorem startOperation_i2cToCnt : (s.startOperation d n).i2cToCnt = 0 := rfl
@[simp] theorem startOperation_i2cTxbuf : (s.startOperation d n).i2cTxbuf = s.i2cTxbuf := rfl
@[simp] theorem startOperation_i2cTxlen : (s.startOperation d n).i2cTxlen = s.i2cTxlen := rfl
@[simp] theorem startOperation_i2cRxbuf : (s.startOperation d n).i2cRxbuf = s.i2cRxbuf := rfl
@[simp] theorem startOperation_i2cRxlen : (s.startOperation d n).i2cRxlen = s.i2cRxlen := rfl
@[simp] theorem startOperation_i2cErrlog : (s.startOperation d n).i2cErrlog = s.i2cErrlog := rfl
@[simp] theorem startOperation_i2cErrHead : (s.startOperation d n).i2cErrHead = s.i2cErrHead := rfl
@[simp] theorem startOperation_i2cErrCount : (s.startOperation d n).i2cErrCount = s.i2cErrCount := rfl
@[simp] theorem startOperation_ipI2c : (s.startOperation d n).ipI2c = s.ipI2c := rfl
@[simp] theorem startOperation_i2cEv : (s.startOperation d n).i2cEv = s.i2cEv := rfl
@[simp] theorem startOperation_i2cEvData : (s.startOperation d n).i2cEvData = s.i2cEvData := rfl
@[simp] theorem startOperation_ipTick : (s.startOperation d n).ipTick = s.ipTick := rfl
@[simp] theorem startOperation_schSlot : (s.startOperation d n).schSlot = s.schSlot := rfl
@[simp] theorem startOperation_schRunning : (s.startOperation d n).schRunning = s.schRunning := rfl
@[simp] theorem startOperation_schInPoll : (s.startOperation d n).schInPoll = s.schInPoll := rfl
@[simp] theorem startOperation_gateHeld : (s.startOperation d n).gateHeld = s.gateHeld := rfl
@[simp] theorem startOperation_gateOwner : (s.startOperation d n).gateOwner = s.gateOwner := rfl
@[simp] theorem startOperation_trace : (s.startOperation d n).trace = s.trace := rfl
@[simp] theorem startOperation_wire : (s.startOperation d n).wire = s.wire ++ [.start, .ad s.i2cAddr d] := rfl
@[simp] theorem startOperation_resps : (s.startOperation d n).resps = s.resps := rfl
@[simp] theorem startOperation_agenda : (s.startOperation d n).agenda = s.agenda := rfl
end startOperation

section errAdvance
variable (s : State)
@[simp] theorem errAdvance_cfg : s.errAdvance.cfg = s.cfg := rfl
@[simp] theorem errAdvance_tbCount : s.errAdvance.tbCount = s.tbCount := rfl
@[simp] theorem errAdvance_tbRun : s.errAdvance.tbRun = s.tbRun := rfl
@[simp] theorem errAdvance_frCount : s.errAdvance.frCount = s.frCount := rfl
@[simp] theorem errAdvance_dlyActive : s.errAdvance.dlyActive = s.dlyActive := rfl
@[simp] theorem errAdvance_dlyT0 : s.errAdvance.dlyT0 = s.dlyT0 := rfl
@[simp] theorem errAdvance_dlyNeed : s.errAdvance.dlyNeed = s.dlyNeed := rfl
@[simp] theorem errAdvance_i2cInited : s.errAdvance.i2cInited = s.i2cInited := rfl
@[simp] theorem errAdvance_i2cCbEn : s.errAdvance.i2cCbEn = s.i2cCbEn := rfl
@[simp] theorem errAdvance_i2cAddr : s.errAdvance.i2cAddr = s.i2cAddr := rfl
@[simp] theorem errAdvance_i2cBusy : s.errAdvance.i2cBusy = s.i2cBusy := rfl
@[simp] theorem errAdvance_i2cError : s.errAdvance.i2cError = s.i2cError := rfl
@[simp] theorem errAdvance_i2cPhase : s.errAdvance.i2cPhase = s.i2cPhase := rfl
@[simp] theorem errAdvance_i2cDir : s.errAdvance.i2cDir = s.i2cDir := rfl
@[simp] theorem errAdvance_i2cLen : s.errAdvance.i2cLen = s.i2cLen := rfl
@[simp] theorem errAdvance_i2cIdx : s.errAdvance.i2cIdx = s.i2cIdx := rfl
@[simp] theorem errAdvance_i2cToCnt : s.errAdvance.i2cToCnt = s.i2cToCnt := rfl
@[simp] theorem errAdvance_i2cTxbuf : s.errAdvance.i2cTxbuf = s.i2cTxbuf := rfl
@[simp] theorem errAdvance_i2cTxlen : s.errAdvance.i2cTxlen = s.i2cTxlen := rfl
@[simp] theorem errAdvance_i2cRxbuf : s.errAdvance.i2cRxbuf = s.i2cRxbuf := rfl
@[simp] theorem errAdvance_i2cRxlen : s.errAdvance.i2cRxlen = s.i2cRxlen := rfl
@[simp] theorem errAdvance_i2cErrlog : s.errAdvance.i2cErrlog = s.i2cErrlog := rfl
@[simp] theorem errAdvance_i2cErrHead : s.errAdvance.i2cErrHead = BitVec.ofNat 8 ((s.i2cErrHead.toNat + 1) % s.cfg.i2cErrlogLen) := rfl
@[simp] theorem errAdvance_i2cErrCount : s.errAdvance.i2cErrCount = BitVec.ofNat 8 (min (s.i2cErrCount.toNat + 1) s.cfg.i2cErrlogLen) := rfl
@[simp] theorem errAdvance_ipI2c : s.errAdvance.ipI2c = s.ipI2c := rfl
@[simp] theorem errAdvance_i2cEv : s.errAdvance.i2cEv = s.i2cEv := rfl
@[simp] theorem errAdvance_i2cEvData : s.errAdvance.i2cEvData = s.i2cEvData := rfl
@[simp] theorem errAdvance_ipTick : s.errAdvance.ipTick = s.ipTick := rfl
@[simp] theorem errAdvance_schSlot : s.errAdvance.schSlot = s.schSlot := rfl
@[simp] theorem errAdvance_schRunning : s.errAdvance.schRunning = s.schRunning := rfl
@[simp] theorem errAdvance_schInPoll : s.errAdvance.schInPoll = s.schInPoll := rfl
@[simp] theorem errAdvance_gateHeld : s.errAdvance.gateHeld = s.gateHeld := rfl
@[simp] theorem errAdvance_gateOwner : s.errAdvance.gateOwner = s.gateOwner := rfl
@[simp] theorem errAdvance_trace : s.errAdvance.trace = s.trace := rfl
@[simp] theorem errAdvance_wire : s.errAdvance.wire = s.wire := rfl
@[simp] theorem errAdvance_resps : s.errAdvance.resps = s.resps := rfl
@[simp] theorem errAdvance_agenda : s.errAdvance.agenda = s.agenda := rfl
end errAdvance

end Sys2Proof.Machine.State
end

