-- ==== Sys2Proof/Laws/Ops.lean ====
section
/-! SUPPORT. What each shared operation can do, said once: cite these rather than unfold the operation. -/

namespace Sys2Proof.Machine

/-! ### Checks and commands -/

@[simp] theorem checkThat_eq_none {b : Bool} {e : Status} : checkThat b e = none ↔ b = true := by
  cases b <;> simp [checkThat]

@[simp] theorem checkThat_eq_some {b : Bool} {e f : Status} : checkThat b e = some f ↔ b = false ∧ e = f := by
  cases b <;> simp [checkThat]

@[simp] theorem firstRaised_nil : firstRaised [] = none := rfl

@[simp] theorem firstRaised_none (cs : List (Option Status)) : firstRaised (none :: cs) = firstRaised cs := rfl

@[simp] theorem firstRaised_some (e : Status) (cs : List (Option Status)) : firstRaised (some e :: cs) = some e := rfl

/-- The checks read as one chain of conditions. -/
theorem firstRaised_checkThat (b : Bool) (e : Status) (cs : List (Option Status)) :
    firstRaised (checkThat b e :: cs) = if b = true then firstRaised cs else some e := by
  cases b <;> rfl

/-- A command raises nothing exactly when each check passes. -/
theorem firstRaised_eq_none {cs : List (Option Status)} : firstRaised cs = none ↔ ∀ c ∈ cs, c = none := by
  induction cs with
  | nil => simp
  | cons c cs ih => cases c <;> simp [ih]

/-- A command that answers a next state was rejected and changed nothing else, or ran its effect. -/
theorem guarded_next {cs : List (Option Status)} {s t : State} {run : Result} (h : guarded cs s run = .next t) :
    (∃ e, firstRaised cs = some e ∧ t = s.reject e) ∨ (firstRaised cs = none ∧ run = .next t) := by
  unfold guarded at h
  split at h
  · next e he => exact .inl ⟨e, he, by simpa using h.symm⟩
  · next he => exact .inr ⟨he, h⟩

/-- A command whose checks pass runs its effect. -/
theorem guarded_pass {cs : List (Option Status)} {s : State} {run : Result} (h : firstRaised cs = none) :
    guarded cs s run = run := by
  simp [guarded, h]

/-- A command one of whose checks fails is rejected with the first one's status. -/
theorem guarded_raise {cs : List (Option Status)} {s : State} {run : Result} {e : Status} (h : firstRaised cs = some e) :
    guarded cs s run = .next (s.reject e) := by
  simp [guarded, h]

/-- A command that faults passed its checks. -/
theorem guarded_fault {cs : List (Option Status)} {s : State} {run : Result} {f : Fault} (h : guarded cs s run = .fault f) :
    firstRaised cs = none ∧ run = .fault f := by
  unfold guarded at h
  split at h
  · exact absurd h (by simp)
  · next he => exact ⟨he, h⟩

/-! ### The byte spaces -/

theorem loadByte_next {sp : Space} {i : Nat} {s t : State} {k : Byte → Result} (h : loadByte sp i s k = .next t) :
    i < sp.capacity s.cfg ∧ k ((s.space sp).read i) = .next t := by
  unfold loadByte at h
  split at h
  · exact ⟨‹_›, h⟩
  · exact absurd h (by simp)

theorem loadByte_inside {sp : Space} {i : Nat} {s : State} {k : Byte → Result} (h : i < sp.capacity s.cfg) :
    loadByte sp i s k = k ((s.space sp).read i) := if_pos h

theorem storeByte_next {sp : Space} {i : Nat} {v : Byte} {s t : State} {k : State → Result}
    (h : storeByte sp i v s k = .next t) : i < sp.capacity s.cfg ∧ k (s.withByte sp i v) = .next t := by
  unfold storeByte at h
  split at h
  · exact ⟨‹_›, h⟩
  · exact absurd h (by simp)

theorem storeByte_inside {sp : Space} {i : Nat} {v : Byte} {s : State} {k : State → Result} (h : i < sp.capacity s.cfg) :
    storeByte sp i v s k = k (s.withByte sp i v) := if_pos h

/-! ### Delay holds -/

/-- A hold ends where its time has passed, with one response; else nothing happens. -/
theorem endHold_cases (s : State) :
    (s.dlyActive = true ∧ s.dlyNeed.toNat ≤ s.dlyElapsed.toNat ∧ endHold s = State.respond { s with dlyActive := false } 0) ∨
    ((s.dlyActive = true → s.dlyElapsed.toNat < s.dlyNeed.toNat) ∧ endHold s = s) := by
  unfold endHold
  split
  · next h =>
    rw [Bool.and_eq_true, decide_eq_true_eq] at h
    exact .inl ⟨h.1, h.2, rfl⟩
  · next h =>
    refine .inr ⟨fun ha => ?_, rfl⟩
    rw [Bool.and_eq_true, decide_eq_true_eq] at h
    exact Nat.lt_of_not_le fun hn => h ⟨ha, hn⟩

/-! ### Bus responses -/

/-- A bus response that is admitted latches its event; one that is not changes nothing. -/
theorem busStep_next {fits : Bool} {e : Event} {d : Byte} {w : List WireSym} {s t : State}
    (h : busStep fits e d w s = .next t) :
    (fits = true ∧ s.ipTick = false ∧ s.ipI2c = false ∧ t = (s.postI2c e d).drive w) ∨ t = s := by
  unfold busStep at h
  split at h
  · next hc => exact .inl ⟨by simp_all, by simp_all, by simp_all, by simpa using h.symm⟩
  · exact .inr (by simpa using h.symm)

/-! ### Callbacks and handlers -/

/-- `Fault(k)` writes the code at the ring's head and idles. -/
theorem faultCallback_next {k : FaultKind} {s t : State} (h : faultCallback k s = .next t) :
    s.i2cErrHead.toNat < s.cfg.i2cErrlogLen ∧
    t = { s with
      wire := s.wire ++ (if s.i2cPhase ≠ .stop then [.stop] else [])
      i2cError := true, i2cBusy := false, i2cPhase := .idle
      i2cErrlog := s.i2cErrlog.write s.i2cErrHead.toNat k.code
      i2cErrHead := BitVec.ofNat 8 ((s.i2cErrHead.toNat + 1) % s.cfg.i2cErrlogLen)
      i2cErrCount := BitVec.ofNat 8 (min (s.i2cErrCount.toNat + 1) s.cfg.i2cErrlogLen)
      trace := s.trace ++ [.cb (.fault k)] } := by
  obtain ⟨hlt, he⟩ := storeByte_next h
  refine ⟨hlt, ?_⟩
  simp only [Host.Outcome.next.injEq] at he
  subst he
  by_cases hp : s.i2cPhase = .stop <;>
    simp [State.withByte, State.emit, State.errAdvance, State.flagsFault, State.drive, hp]

/-- `Fault(k)` runs where the ring's head exists. -/
theorem faultCallback_runs {k : FaultKind} {s : State} (h : s.i2cErrHead.toNat < s.cfg.i2cErrlogLen) :
    ∃ t, faultCallback k s = .next t := ⟨_, storeByte_inside h⟩

/-- Address acknowledged: a receive goes to its first byte; a transmit sends byte 0, or stops where it has none. -/
theorem addressAcked_next {s t : State} (h : addressAcked s = .next t) :
    (s.i2cDir = .receive ∧ t = { s with i2cPhase := .rx }) ∨
    (s.i2cDir = .transmit ∧ s.i2cLen = 0 ∧ t = { s with i2cPhase := .stop, wire := s.wire ++ [.stop] }) ∨
    (s.i2cDir = .transmit ∧ s.i2cLen ≠ 0 ∧
      t = { s with i2cPhase := .tx, wire := s.wire ++ [.sent (s.i2cTxbuf.read 0)] }) := by
  unfold addressAcked at h
  split at h
  · next hd =>
    split at h
    · next hl => exact .inr (.inl ⟨hd, hl, (Host.Outcome.next.inj h).symm⟩)
    · next hl => exact .inr (.inr ⟨hd, hl, (Host.Outcome.next.inj (loadByte_next h).2).symm⟩)
  · next hd => exact .inl ⟨hd, (Host.Outcome.next.inj h).symm⟩

/-- Data byte acknowledged: the index moves on, and the last byte owes the stop condition, any other one the next byte. -/
theorem byteAcked_next {s t : State} (h : byteAcked s = .next t) :
    (s.i2cIdx + 1 = s.i2cLen ∧ t = { s with i2cIdx := s.i2cIdx + 1, i2cPhase := .stop, wire := s.wire ++ [.stop] }) ∨
    (s.i2cIdx + 1 ≠ s.i2cLen ∧ (s.i2cIdx + 1).toNat < s.cfg.i2cBufLen ∧
      t = { s with i2cIdx := s.i2cIdx + 1, wire := s.wire ++ [.sent (s.i2cTxbuf.read (s.i2cIdx + 1).toNat)] }) := by
  unfold byteAcked at h
  simp only at h
  split at h
  · next hl => exact .inl ⟨hl, (Host.Outcome.next.inj h).symm⟩
  · next hl => exact .inr ⟨hl, (loadByte_next h).1, (Host.Outcome.next.inj (loadByte_next h).2).symm⟩

/-- Data byte received: it is stored at the index, which moves on; the last byte is not acknowledged and owes the stop condition. -/
theorem byteReceived_next {d : Byte} {s t : State} (h : byteReceived d s = .next t) :
    s.i2cIdx.toNat < s.cfg.i2cBufLen ∧
    ((s.i2cIdx + 1 = s.i2cLen ∧ t = { s with
        i2cRxbuf := s.i2cRxbuf.write s.i2cIdx.toNat d, i2cIdx := s.i2cIdx + 1, i2cRxlen := s.i2cIdx + 1, i2cPhase := .stop,
        wire := s.wire ++ [.masterNack, .stop] }) ∨
     (s.i2cIdx + 1 ≠ s.i2cLen ∧ t = { s with
        i2cRxbuf := s.i2cRxbuf.write s.i2cIdx.toNat d, i2cIdx := s.i2cIdx + 1, i2cRxlen := s.i2cIdx + 1,
        wire := s.wire ++ [.masterAck] })) := by
  obtain ⟨hlt, he⟩ := storeByte_next h
  simp only at he
  split at he
  · next hl => exact ⟨hlt, .inl ⟨hl, (Host.Outcome.next.inj he).symm⟩⟩
  · next hl => exact ⟨hlt, .inr ⟨hl, (Host.Outcome.next.inj he).symm⟩⟩

/-- What `I2cIsr` does with a phase and an event: an arm of 42_i2c_bus_fsm R152, or nothing (R163). -/
theorem i2cArm_cases (e : Event) (d : Byte) (s : State) :
    (s.i2cPhase ≠ .idle ∧ e = .wcol ∧ i2cArm e d s = faultCallback .wcol s) ∨
    (s.i2cPhase ≠ .idle ∧ e = .timeout ∧ i2cArm e d s = faultCallback .timeout s) ∨
    (s.i2cPhase = .addr ∧ e = .ack ∧ i2cArm e d s = addressAcked s) ∨
    (s.i2cPhase = .tx ∧ e = .ack ∧ i2cArm e d s = byteAcked s) ∨
    (s.i2cPhase = .addr ∧ e = .nack ∧ i2cArm e d s = faultCallback .anack s) ∨
    (s.i2cPhase = .tx ∧ e = .nack ∧ i2cArm e d s = faultCallback .dnack s) ∨
    (s.i2cPhase = .rx ∧ e = .data ∧ i2cArm e d s = byteReceived d s) ∨
    (s.i2cPhase = .stop ∧ e = .stopped ∧ i2cArm e d s = .next (doneCallback s)) ∨
    i2cArm e d s = .next s := by
  cases hp : s.i2cPhase <;> cases e <;> simp [i2cArm, hp]

/-! ### The step -/

/-- The label that moves: with no hold the first of the agenda; during one the first that is no packet, the packets before it staying. -/
theorem nextLabel_some {hold : Bool} {ls rest : List Label} {l : Label} (h : nextLabel hold ls = some (l, rest)) :
    (hold = false → ls = l :: rest) ∧ (hold = true → l.isCmd = false) ∧ l ∈ ls ∧ (∀ x ∈ rest, x ∈ ls) ∧
    (l.isCmd = false → rest.filter Label.isCmd = ls.filter Label.isCmd) := by
  induction ls generalizing rest with
  | nil => simp [nextLabel] at h
  | cons a ls ih =>
    unfold nextLabel at h
    split at h
    · next hc =>
      rw [Bool.and_eq_true] at hc
      split at h
      · next l' ls' he =>
        simp only [Option.some.injEq, Prod.mk.injEq] at h
        obtain ⟨rfl, rfl⟩ := h
        obtain ⟨-, h2, h3, h4, h5⟩ := ih he
        refine ⟨by simp [hc.1], h2, by simp [h3], ?_, fun hl => by simp [hc.2, h5 hl]⟩
        intro x hx
        rcases List.mem_cons.1 hx with rfl | hx
        · simp
        · simp [h4 x hx]
      · exact absurd h (by simp)
    · next hc =>
      simp only [Option.some.injEq, Prod.mk.injEq] at h
      obtain ⟨rfl, rfl⟩ := h
      exact ⟨fun _ => rfl, fun hh => by simpa [hh] using hc, by simp, fun x hx => by simp [hx],
        fun hl => by simp [hl]⟩

/-- No label moves only where the agenda holds nothing but packets that wait. -/
theorem nextLabel_none {hold : Bool} {ls : List Label} (h : nextLabel hold ls = none) :
    ls = [] ∨ (hold = true ∧ ∀ l ∈ ls, l.isCmd = true) := by
  induction ls with
  | nil => exact .inl rfl
  | cons a ls ih =>
    unfold nextLabel at h
    split at h
    · next hc =>
      rw [Bool.and_eq_true] at hc
      split at h
      · exact absurd h (by simp)
      · next he =>
        refine .inr ⟨hc.1, fun l hl => ?_⟩
        rcases List.mem_cons.1 hl with rfl | hl
        · exact hc.2
        · rcases ih he with rfl | hr
          · simp at hl
          · exact hr.2 l hl
    · exact absurd h (by simp)

/-- What a step is: the tick is served, or the I2C request, or the next label moves, or nothing is to come. -/
theorem step_cases (s : State) :
    (s.ipTick = true ∧ step s = .next (tickIsr s)) ∨
    (s.ipTick = false ∧ s.ipI2c = true ∧ step s = i2cArm s.i2cEv s.i2cEvData s.clearI2cRequest) ∨
    (s.ipTick = false ∧ s.ipI2c = false ∧ ∃ l rest, nextLabel s.dlyActive s.agenda = some (l, rest) ∧
      step s = perform l { s with agenda := rest }) ∨
    (s.ipTick = false ∧ s.ipI2c = false ∧ nextLabel s.dlyActive s.agenda = none ∧ step s = .next s) := by
  unfold step stepOnce dispatch i2cIsr
  by_cases hT : s.ipTick = true
  · exact .inl ⟨hT, by simp only [hT, Bool.true_or, if_true]⟩
  · rw [Bool.not_eq_true] at hT
    by_cases hI : s.ipI2c = true
    · exact .inr (.inl ⟨hT, hI, by rw [if_pos (by simp [hI]), if_neg (by simp [hT]), if_pos hI]⟩)
    · rw [Bool.not_eq_true] at hI
      rw [if_neg (by simp [hT, hI])]
      cases hn : nextLabel s.dlyActive s.agenda with
      | none => exact .inr (.inr (.inr ⟨hT, hI, rfl, rfl⟩))
      | some p => exact .inr (.inr (.inl ⟨hT, hI, p.1, p.2, rfl, rfl⟩))

/-- A label that a hold does not keep back moves when it is next and nothing is pending. -/
theorem step_label {s : State} {l : Label} {rest : List Label} (hT : s.ipTick = false) (hI : s.ipI2c = false)
    (ha : s.agenda = l :: rest) (hh : s.dlyActive = false ∨ l.isCmd = false) :
    step s = perform l { s with agenda := rest } := by
  have hn : (s.dlyActive && l.isCmd) = false := by rcases hh with h | h <;> simp [h]
  simp [step, stepOnce, hT, hI, ha, nextLabel, hn]

/-- What a label's step that answers a next state did. -/
theorem perform_next {l : Label} {s t : State} (h : perform l s = .next t) :
    (∃ p i, l = .cmd p ∧ decode l = .ok i ∧ exec i s = .next t) ∨
    (∃ p e, l = .cmd p ∧ decode l = .error e ∧ t = s.reject (decodeStatus e)) ∨
    (l = .poll ∧ t = pollStep s) ∨ (l = .tick ∧ t = tickStep s) ∨ (l = .usTick ∧ t = usTickStep s) ∨
    (∃ r i, l = .bus r ∧ decode l = .ok i ∧ exec i s = .next t) ∨
    (∃ r i u, l = .tickBus r ∧ decode l = .ok i ∧ exec i s = .next u ∧ t = tickStep u) := by
  cases l with
  | cmd p =>
    simp only [perform, performPacket] at h
    split at h
    · next i hi => exact .inl ⟨p, i, rfl, hi, h⟩
    · next e he => exact .inr (.inl ⟨p, e, rfl, he, by simpa using h.symm⟩)
  | poll => exact .inr (.inr (.inl ⟨rfl, by simpa [perform] using h.symm⟩))
  | tick => exact .inr (.inr (.inr (.inl ⟨rfl, by simpa [perform] using h.symm⟩)))
  | usTick => exact .inr (.inr (.inr (.inr (.inl ⟨rfl, by simpa [perform] using h.symm⟩))))
  | bus r =>
    simp only [perform, performRecord] at h
    split at h
    · next i hi => exact .inr (.inr (.inr (.inr (.inr (.inl ⟨r, i, rfl, hi, h⟩)))))
    · exact absurd h (by simp)
  | tickBus r =>
    simp only [perform, performRecord] at h
    split at h
    · next i hi =>
      cases hx : exec i s with
      | next u =>
        rw [hx] at h
        exact .inr (.inr (.inr (.inr (.inr (.inr ⟨r, i, u, rfl, hi, hx, by simpa [alsoTick] using h.symm⟩)))))
      | fault f => simp [hx, alsoTick] at h
      | refused f => simp [hx, alsoTick] at h
    · exact absurd h (by simp [alsoTick])

end Sys2Proof.Machine
end

