-- ==== Sys2Proof/Laws/Checks.lean ====
section
/-! SUPPORT. When each precondition check passes, in the terms of the claims. -/

namespace Sys2Proof.Machine

theorem ctxCheck_eq_none {s : State} : ctxCheck s = none ↔ s.ctxOpen := by
  cases h : s.schRunning <;> cases h' : s.schInPoll <;> simp [ctxCheck, h, h']

theorem gateCheck_eq_none {s : State} : gateCheck s = none ↔ s.gateOpen := by
  cases h : s.gateHeld <;> simp [gateCheck, h]

theorem initCheck_eq_none {s : State} : initCheck s = none ↔ s.i2cInited = true := by
  simp [initCheck]

theorem idleCheck_eq_none {s : State} : idleCheck s = none ↔ s.i2cBusy = false := by
  simp [idleCheck]

theorem addressCheck_eq_none {a : Byte} : addressCheck a = none ↔ addressOk a = true := by
  simp [addressCheck]

theorem countCheck_eq_none {c : Config} {n : Byte} : countCheck c n = none ↔ countOk c n = true := by
  simp [countCheck]

theorem stampCheck_eq_none {c : Config} {v : Word} : stampCheck c v = none ↔ stampOk c v = true := by
  simp [stampCheck]

theorem sregCheck_eq_none {r : Byte} : sregCheck r = none ↔ sregOk r = true := by
  simp [sregCheck]

/-- A count of TB_WIDTH bits is read as it stands. -/
theorem tbTrunc_of_lt {c : Config} {v : Word} (h : v.toNat < 2 ^ c.tbWidth) : tbTrunc c v = v := by
  simp [tbTrunc, Nat.mod_eq_of_lt h]

end Sys2Proof.Machine
end

