-- ==== Sys2Proof/Laws/Memory.lean ====
section
/-! SUPPORT. The laws of the byte spaces: read after write, and that a write keeps the canonical form and the capacity. -/

namespace Sys2Proof.Machine

theorem Memory.wf_cons {a : Nat} {b : Byte} {m : Memory} (h : Memory.wf ((a, b) :: m) = true) :
    b ≠ Memory.unlisted ∧ (∀ c ∈ m, a < c.1) ∧ Memory.wf m = true := by
  simpa [Memory.wf, and_assoc] using h

theorem Memory.wf_of_cons {a : Nat} {b : Byte} {m : Memory} (hb : b ≠ Memory.unlisted) (ha : ∀ c ∈ m, a < c.1)
    (hm : Memory.wf m = true) : Memory.wf ((a, b) :: m) = true := by
  simpa [Memory.wf, and_assoc] using ⟨hb, fun x y h => ha (x, y) h, hm⟩

theorem Memory.read_cons_self (a : Nat) (b : Byte) (m : Memory) : Memory.read ((a, b) :: m) a = b := by
  rw [Memory.read, if_pos rfl]

theorem Memory.read_cons_ne {a i : Nat} (h : a ≠ i) (b : Byte) (m : Memory) : Memory.read ((a, b) :: m) i = m.read i := by
  rw [Memory.read, if_neg h]

/-- An index below every listed one reads as unlisted. -/
theorem Memory.read_below {m : Memory} {i : Nat} (h : ∀ c ∈ m, i < c.1) : m.read i = Memory.unlisted := by
  induction m with
  | nil => rfl
  | cons c m ih =>
    have hc := h c (by simp)
    rw [Memory.read, if_neg (by omega)]
    exact ih fun d hd => h d (by simp [hd])

/-- A write lists no index but the old ones and its own. -/
theorem Memory.mem_write {m : Memory} {i : Nat} {v : Byte} {c : Host.Cell} (h : c ∈ m.write i v) : c ∈ m ∨ c = (i, v) := by
  induction m with
  | nil =>
    unfold Memory.write at h
    split at h <;> simp_all
  | cons d m ih =>
    unfold Memory.write at h
    split_ifs at h <;> simp_all <;> grind

/-- A write keeps the canonical form. -/
theorem Memory.wf_write {m : Memory} (h : m.wf = true) (i : Nat) (v : Byte) : (m.write i v).wf = true := by
  induction m with
  | nil =>
    unfold Memory.write
    split
    · rfl
    · exact wf_of_cons ‹_› (by simp) rfl
  | cons c m ih =>
    obtain ⟨hb, ha, hm⟩ := wf_cons h
    unfold Memory.write
    split_ifs with h1 h2 h3 h4
    · exact h
    · refine wf_of_cons h2 (fun d hd => ?_) h
      rcases List.mem_cons.1 hd with rfl | hd
      · exact h1
      · exact h1.trans (ha d hd)
    · exact hm
    · exact wf_of_cons h4 (fun d hd => h3 ▸ ha d hd) hm
    · refine wf_of_cons hb (fun d hd => ?_) (ih hm)
      rcases mem_write hd with hd | rfl
      · exact ha d hd
      · show c.1 < i
        omega

/-- A write to a canonical space changes what its own index reads as, and no other. -/
theorem Memory.read_write {m : Memory} (h : m.wf = true) (i : Nat) (v : Byte) (j : Nat) :
    (m.write i v).read j = if j = i then v else m.read j := by
  induction m with
  | nil =>
    simp only [Memory.write]
    split
    · next hv => simp only [Memory.read, hv, ite_self]
    · simp only [Memory.read, eq_comm]
  | cons c m ih =>
    obtain ⟨hb, ha, hm⟩ := wf_cons h
    have below : Memory.read m c.1 = Memory.unlisted := Memory.read_below fun d hd => ha d hd
    have belowI : i < c.1 → Memory.read m i = Memory.unlisted := fun hk =>
      Memory.read_below fun d hd => lt_trans hk (ha d hd)
    obtain ⟨a, b⟩ := c
    simp only at below belowI
    simp only [Memory.write]
    by_cases h1 : i < a
    · rw [if_pos h1]
      by_cases h2 : v = Memory.unlisted
      · rw [if_pos h2]
        by_cases hj : j = i
        · rw [if_pos hj, hj, Memory.read_cons_ne (by omega), belowI h1, h2]
        · rw [if_neg hj]
      · rw [if_neg h2]
        by_cases hj : j = i
        · rw [if_pos hj, hj, Memory.read_cons_self]
        · rw [if_neg hj, Memory.read_cons_ne (by omega)]
    · rw [if_neg h1]
      by_cases h3 : i = a
      · subst h3
        rw [if_pos rfl]
        by_cases h4 : v = Memory.unlisted
        · rw [if_pos h4]
          by_cases hj : j = i
          · rw [if_pos hj, hj, below, h4]
          · rw [if_neg hj, Memory.read_cons_ne (by omega)]
        · rw [if_neg h4]
          by_cases hj : j = i
          · rw [if_pos hj, hj, Memory.read_cons_self]
          · rw [if_neg hj, Memory.read_cons_ne (by omega), Memory.read_cons_ne (by omega)]
      · rw [if_neg h3]
        by_cases hj : a = j
        · rw [← hj, if_neg (by omega), Memory.read_cons_self, Memory.read_cons_self]
        · rw [Memory.read_cons_ne hj, ih hm, Memory.read_cons_ne hj]

/-- A space keeps its form and its capacity under a write inside it. -/
theorem Memory.fits_write {cap : Nat} {m : Memory} (h : m.fits cap) {i : Nat} (hi : i < cap) (v : Byte) :
    Memory.fits cap (m.write i v) := by
  refine ⟨Memory.wf_write h.1 i v, fun c hc => ?_⟩
  rcases Memory.mem_write hc with hc | rfl
  · exact h.2 c hc
  · exact hi

theorem Memory.fits_nil (cap : Nat) : Memory.fits cap [] := ⟨rfl, by simp⟩

end Sys2Proof.Machine
end

