-- ==== Sys2Proof/Laws/PerInstr.lean ====
section
/-! SUPPORT. Statements made per instruction, one lemma per constructor. -/

namespace Sys2Proof.Laws.EncodedLength

/-- The bytes that the opcode table's column `length_bytes` gives the instruction (30_encoding R81, R83, R90). -/
def tabled : Instr → Nat
  | .sysRd _ | .i2cInit _ | .i2cSetaddr _ | .i2cPush _ | .i2cStartrx _ | .i2cRxrd _ | .i2cErrrd _ => 2
  | .dlyMs _ | .dlyUs _ => 3
  | .tbElapsed _ => 5
  | .schRun | .schRet | .tbStart | .tbStop | .tbNow | .i2cReset | .i2cStarttx | .i2cWait | .i2cResult | .gateReq | .gateRel => 1
  | .busAck | .busNack | .busData _ | .busStopped | .busCollision => 2

/-- The bytes that a label carries. -/
def carried : Label → Nat
  | .cmd p => 1 + p.operand.length
  | .bus _ | .tickBus _ => 2
  | .poll | .tick | .usTick => 0

/-- The encoded instruction has the length of its table row. -/
def Statement (i : Instr) : Prop := carried (encode i) = tabled i

theorem schRun : Statement .schRun := rfl
theorem schRet : Statement .schRet := rfl
theorem sysRd (r : Byte) : Statement (.sysRd r) := rfl
theorem tbStart : Statement .tbStart := rfl
theorem tbStop : Statement .tbStop := rfl
theorem tbNow : Statement .tbNow := rfl
theorem tbElapsed (stamp : Word) : Statement (.tbElapsed stamp) := rfl
theorem dlyMs (n : Half) : Statement (.dlyMs n) := rfl
theorem dlyUs (n : Half) : Statement (.dlyUs n) := rfl
theorem i2cInit (a : Byte) : Statement (.i2cInit a) := rfl
theorem i2cSetaddr (a : Byte) : Statement (.i2cSetaddr a) := rfl
theorem i2cReset : Statement .i2cReset := rfl
theorem i2cPush (b : Byte) : Statement (.i2cPush b) := rfl
theorem i2cStarttx : Statement .i2cStarttx := rfl
theorem i2cStartrx (n : Byte) : Statement (.i2cStartrx n) := rfl
theorem i2cWait : Statement .i2cWait := rfl
theorem i2cResult : Statement .i2cResult := rfl
theorem i2cRxrd (x : Byte) : Statement (.i2cRxrd x) := rfl
theorem i2cErrrd (x : Byte) : Statement (.i2cErrrd x) := rfl
theorem gateReq : Statement .gateReq := rfl
theorem gateRel : Statement .gateRel := rfl
theorem busAck : Statement .busAck := rfl
theorem busNack : Statement .busNack := rfl
theorem busData (b : Byte) : Statement (.busData b) := rfl
theorem busStopped : Statement .busStopped := rfl
theorem busCollision : Statement .busCollision := rfl

end Sys2Proof.Laws.EncodedLength
end

