-- ==== Sys2Proof/Laws/Pseudo.lean ====
section
/-! SUPPORT. What a client does after any responses: one lemma per pseudo-instruction and per way it can go. -/

namespace Sys2Proof.Machine

@[simp] theorem give_apply {α : Type} (a : α) (rs : List Response) : give a rs = .success a rs := rfl

@[simp] theorem giveUp_apply {α : Type} (rs : List Response) : (giveUp : Client α) rs = .failure rs := rfl

@[simp] theorem command_nil (i : Instr) : command i [] = .issue i := rfl

@[simp] theorem command_ok (i : Instr) (v : Word) (rest : List Response) : command i (⟨.ok, v⟩ :: rest) = .success v rest := rfl

theorem command_rejected (i : Instr) {r : Response} (rest : List Response) (h : r.st ≠ .ok) : command i (r :: rest) = .failure rest :=
  if_neg h

theorem andThen_issue {α β : Type} {c : Client α} {next : α → Client β} {rs : List Response} {i : Instr} (h : c rs = .issue i) :
    andThen c next rs = .issue i := by simp only [andThen, h]

theorem andThen_success {α β : Type} {c : Client α} {next : α → Client β} {rs rest : List Response} {a : α}
    (h : c rs = .success a rest) : andThen c next rs = next a rest := by simp only [andThen, h]

theorem andThen_failure {α β : Type} {c : Client α} {next : α → Client β} {rs rest : List Response} (h : c rs = .failure rest) :
    andThen c next rs = .failure rest := by simp only [andThen, h]

/-- The responses of commands that were all executed. -/
theorem commands_done (is : List Instr) (oks rest : List Response) (hl : oks.length = is.length) (ho : ∀ r ∈ oks, r.st = .ok) :
    commands is (oks ++ rest) = .success () rest := by
  induction is generalizing oks with
  | nil => cases oks with
    | nil => rfl
    | cons r rs => exact absurd hl (Nat.succ_ne_zero _)
  | cons i is ih => cases oks with
    | nil => exact absurd hl.symm (Nat.succ_ne_zero _)
    | cons r rs =>
      rw [commands, List.cons_append, andThen_success (if_pos (ho r (by simp)))]
      exact ih rs (Nat.succ.inj hl) fun q hq => ho q (List.mem_cons_of_mem _ hq)

/-- After `j` commands executed, the next one is issued. -/
theorem commands_next (is : List Instr) (oks : List Response) (hl : oks.length < is.length) (ho : ∀ r ∈ oks, r.st = .ok) :
    commands is oks = .issue is[oks.length] := by
  induction is generalizing oks with
  | nil => exact absurd hl (Nat.not_lt_zero _)
  | cons i is ih => cases oks with
    | nil => rfl
    | cons r rs =>
      rw [commands, andThen_success (if_pos (ho r (by simp)))]
      exact ih rs (Nat.lt_of_succ_lt_succ hl) fun q hq => ho q (List.mem_cons_of_mem _ hq)

/-- The first command that is rejected ends the sequence in failure. -/
theorem commands_rejected (is : List Instr) (oks : List Response) (r : Response) (rest : List Response) (hl : oks.length < is.length)
    (ho : ∀ q ∈ oks, q.st = .ok) (hr : r.st ≠ .ok) : commands is (oks ++ r :: rest) = .failure rest := by
  induction is generalizing oks with
  | nil => exact absurd hl (Nat.not_lt_zero _)
  | cons i is ih => cases oks with
    | nil => rw [List.nil_append, commands, andThen_failure (command_rejected i rest hr)]
    | cons q qs =>
      rw [commands, List.cons_append, andThen_success (if_pos (ho q (by simp)))]
      exact ih qs (Nat.lt_of_succ_lt_succ hl) fun p hp => ho p (List.mem_cons_of_mem _ hp)

/-- Turns that answered 1 leave the loop where it was. -/
theorem waitDone_turns (n : Nat) (rs : List Response) : waitDone (List.replicate n ⟨.ok, 1⟩ ++ rs) = waitDone rs := by
  induction n with
  | zero => rfl
  | succ n ih => exact ih

@[simp] theorem waitDone_nil : waitDone [] = .issue .i2cWait := rfl

@[simp] theorem waitDone_done (rest : List Response) : waitDone (⟨.ok, 0⟩ :: rest) = .success () rest := rfl

@[simp] theorem resultCheck_success (rest : List Response) : resultCheck (⟨.ok, 1⟩ :: rest) = .success () rest := rfl

@[simp] theorem resultCheck_failure (rest : List Response) : resultCheck (⟨.ok, 0⟩ :: rest) = .failure rest := rfl

/-- `TRANSMIT` after its start and its loop is where its `I2C.RESULT` is. -/
theorem transmit_ended (a : Byte) (bs : List Byte) (oks : List Response) (n : Nat) (rest : List Response)
    (hl : oks.length = bs.length + 3) (ho : ∀ r ∈ oks, r.st = .ok) :
    transmit a bs (oks ++ (List.replicate n ⟨.ok, 1⟩ ++ ⟨.ok, 0⟩ :: rest)) = resultCheck rest := by
  have hs : oks.length = (transmitStart a bs).length := by simp [transmitStart]; omega
  rw [transmit, andThen_success (commands_done _ _ _ hs ho), andThen_success (by rw [waitDone_turns]; rfl)]

/-- `RECEIVE` after its start and its loop: `I2C.RESULT`, and the reads only where it told success. -/
theorem receive_ended (a m : Byte) (oks : List Response) (n : Nat) (rest : List Response) (hl : oks.length = 3)
    (ho : ∀ r ∈ oks, r.st = .ok) :
    receive a m (oks ++ (List.replicate n ⟨.ok, 1⟩ ++ ⟨.ok, 0⟩ :: rest)) =
      andThen resultCheck (fun _ => readBytes (List.range m.toNat)) rest := by
  rw [receive, andThen_success (commands_done (receiveStart a m) _ _ hl ho), andThen_success (by rw [waitDone_turns]; rfl)]

/-- Reads that all answered give their bytes in order. -/
theorem readBytes_done (bs : List Byte) (rest : List Response) (xs : List Nat) (hl : bs.length = xs.length) :
    readBytes xs (bs.map (fun b => ⟨.ok, b.setWidth 32⟩) ++ rest) = .success bs rest := by
  induction xs generalizing bs with
  | nil => cases bs with
    | nil => rfl
    | cons b bs => exact absurd hl (Nat.succ_ne_zero _)
  | cons x xs ih => cases bs with
    | nil => exact absurd hl.symm (Nat.succ_ne_zero _)
    | cons b bs =>
      rw [readBytes, List.map_cons, List.cons_append, andThen_success (command_ok _ _ _), andThen_success (ih bs (Nat.succ.inj hl))]
      simp

/-- `REGREAD` whose first operation failed issues nothing more and fails. -/
theorem regread_failed {a reg n : Byte} {rs rest : List Response} (h : transmit a [reg] rs = .failure rest) :
    regread a reg n rs = .failure rest := andThen_failure h

/-- `REGREAD` whose first operation succeeded goes on with `RECEIVE`. -/
theorem regread_goes_on {a reg n : Byte} {rs rest : List Response} (h : transmit a [reg] rs = .success () rest) :
    regread a reg n rs = receive a n rest := andThen_success h

/-- `GATED` that is denied gives up at once: no operation, no release. -/
theorem gated_denied (seq : List TransportOp) (rest : List Response) : gated seq (⟨.ok, 0⟩ :: rest) = .failure rest := rfl

/-- `GATED` that is granted issues what its operations issue. -/
theorem gated_issues {seq : List TransportOp} {rs : List Response} {i : Instr} (h : inSequence [] seq rs = .issue i) :
    gated seq (⟨.ok, 1⟩ :: rs) = .issue i := by
  show andAlways _ _ rs = _
  simp only [andAlways, h]

/-- `GATED` whose operations ended, in success or in failure, releases the gate. -/
theorem gated_releases {seq : List TransportOp} {rs : List Response}
    (h : inSequence [] seq rs = .failure [] ∨ ∃ bss, inSequence [] seq rs = .success bss []) :
    gated seq (⟨.ok, 1⟩ :: rs) = .issue .gateRel := by
  show andAlways _ _ rs = _
  rcases h with h | ⟨bss, h⟩ <;> simp only [andAlways, h] <;> rfl

/-- The first operation that fails stops the sequence. -/
theorem inSequence_failed {between : List Instr} {op : TransportOp} {ops : List TransportOp} {rs rest : List Response}
    (h : op.client rs = .failure rest) : inSequence between (op :: ops) rs = .failure rest := by
  cases ops <;> exact andThen_failure h

end Sys2Proof.Machine
end

