-- ==== Sys2Proof/Laws/Run.lean ====
section
/-! SUPPORT. Runs step by step, and what a bus record can do. -/

namespace Sys2Proof.Machine

/-- No step: the state is the same. -/
theorem run_zero {s t : State} (h : Sys2Proof.core.run 0 s = .next t) : t = s :=
  (Host.Outcome.next.inj h).symm

/-- A run of one step more starts with a step. -/
theorem run_succ {k : Nat} {s t : State} (h : Sys2Proof.core.run (k + 1) s = .next t) :
    ∃ u : State, step s = .next u ∧ Sys2Proof.core.run k u = .next t := by
  cases hs : step s with
  | next u =>
    have hc : Sys2Proof.core.step s = .next u := hs
    exact ⟨u, rfl, by simpa only [Host.Core.run, hc] using h⟩
  | fault f =>
    have hc : Sys2Proof.core.step s = .fault f := hs
    simp only [Host.Core.run, hc] at h
    exact nomatch (show (Host.Outcome.fault f : Result) = .next t from h)
  | refused r =>
    have hc : Sys2Proof.core.step s = .refused r := hs
    simp only [Host.Core.run, hc] at h
    exact nomatch (show (Host.Outcome.refused r : Result) = .next t from h)

/-- What a label of another agent than the HOST decodes to is a response of the bus. -/
theorem isBus_of_decode {l : Label} {i : Instr} (hd : decode l = .ok i) (hc : l.isCmd = false) : i.isBus = true := by
  cases l <;> simp only [decode, Label.isCmd, reduceCtorEq, Bool.true_eq_false] at hd hc <;>
  · unfold decodeRecord at hd
    split at hd <;> first | (cases hd; rfl) | exact absurd hd (by simp)

/-- A packet decodes to a command of the HOST. -/
theorem isBus_of_packet {p : Packet} {i : Instr} (hd : decode (.cmd p) = .ok i) : i.isBus = false := by
  simp only [decode, decodePacket, formOf] at hd
  split at hd
  · exact absurd hd (by simp)
  all_goals
    rename_i hf
    split at hd
    · cases hd
      split at hf <;> cases hf <;> rfl
    · exact absurd hd (by simp)

/-- A response of the bus latches one event and puts its symbols on the wire, or does nothing. -/
theorem busInstr_next {i : Instr} {s t : State} (hb : i.isBus = true) (h : exec i s = .next t) :
    t = s ∨ (s.ipTick = false ∧ s.ipI2c = false ∧ ∃ e d w, t = (s.postI2c e d).drive w ∧
      ((i = .busAck ∧ (s.i2cPhase = .addr ∨ s.i2cPhase = .tx) ∧ e = .ack ∧ d = 0 ∧ w = [.ack]) ∨
       (i = .busNack ∧ (s.i2cPhase = .addr ∨ s.i2cPhase = .tx) ∧ e = .nack ∧ d = 0 ∧ w = [.nack]) ∨
       (i = .busData d ∧ s.i2cPhase = .rx ∧ e = .data ∧ w = [.received d]) ∨
       (i = .busStopped ∧ s.i2cPhase = .stop ∧ e = .stopped ∧ d = 0 ∧ w = []) ∨
       (i = .busCollision ∧ s.i2cPhase ≠ .idle ∧ e = .wcol ∧ d = 0 ∧ w = []))) := by
  cases i <;> simp only [Instr.isBus, Bool.false_eq_true] at hb
  all_goals
    rcases busStep_next h with ⟨hf, hT, hI, rfl⟩ | rfl
    · refine .inr ⟨hT, hI, _, _, _, rfl, ?_⟩
      simp_all [State.awaitsAck]
    · exact .inl rfl

end Sys2Proof.Machine
end

