-- ==== Sys2Proof/Tests/Slice0.lean ====
section
/-! SUPPORT. The model's own tests. Expected values come from spec/95_test_vectors.md (T1 to T93), spec/30_encoding.md and
spec/opcode_table.json. A `witness_` theorem shows concrete data that meets the hypotheses of the obligation it is named after,
clause by clause, at the boundaries of the ranges. -/

namespace Sys2Proof.Machine.Tests

open Sys2Proof Sys2Proof.Machine

/-! ### Small states -/

/-- The parameters of T48 and T51: I2C_TIMEOUT_CYCLES = 3, I2C_ERRLOG_LEN = 2. -/
def cfg : Config := { tbWidth := 32, i2cBufLen := 32, i2cErrlogLen := 2, i2cTimeout := .cycles 3, schEnableMask := 0b000111 }

/-- The parameters of T16: TB_WIDTH = 8. -/
def cfg8 : Config := { cfg with tbWidth := 8 }

/-- Right after reset. -/
def off : State := State.resetWith cfg Unspecified.zero

/-- After `I2C.INIT 0x68`, the start state of T32. -/
def idle : State := { off with i2cInited := true, i2cCbEn := 0b11111, i2cAddr := 0x68 }

/-- T38's start state: two bytes pushed. -/
def filled : State := { idle with i2cTxbuf := [(0, 0x0E), (1, 0x06)], i2cTxlen := 2 }

/-- After T38: a transmit of two bytes, its address on the wire. -/
def addrT : State :=
  { filled with i2cBusy := true, i2cLen := 2, i2cPhase := .addr, wire := [.start, .ad 0x68 .transmit] }

/-- T20 after the first acknowledge: the first byte is on the wire. -/
def txT : State := { addrT with i2cPhase := .tx, wire := addrT.wire ++ [.ack, .sent 0x0E] }

/-- T20 after the second acknowledge. -/
def txT2 : State := { txT with i2cIdx := 1, wire := txT.wire ++ [.ack, .sent 0x06] }

/-- T20 after the third acknowledge: the stop condition was driven. -/
def stopT : State := { txT2 with i2cIdx := 2, i2cPhase := .stop, wire := txT2.wire ++ [.ack, .stop] }

/-- T24 after its start command: a receive of two bytes. -/
def addrR : State :=
  { idle with i2cBusy := true, i2cDir := .receive, i2cLen := 2, i2cPhase := .addr, wire := [.start, .ad 0x68 .receive] }

/-- T24 after the address was acknowledged. -/
def rxR : State := { addrR with i2cPhase := .rx, wire := addrR.wire ++ [.ack] }

/-- T24 before its last byte. -/
def rxR2 : State :=
  { rxR with i2cIdx := 1, i2cRxlen := 1, i2cRxbuf := [(0, 0x19)], wire := rxR.wire ++ [.received 0x19, .masterAck] }

/-- A poll of the given slot is open. -/
def inPoll (slot : Slot) (s : State) : State := { s with schRunning := true, schInPoll := true, schSlot := slot }

/-- The loop runs and no poll is open. -/
def between (s : State) : State := { s with schRunning := true }

/-- The gate is held by slot 0, which is not the requester `main`. -/
def denied (s : State) : State := { s with gateHeld := true, gateOwner := 0 }

/-- A delay hold of the given length, begun at the present count. -/
def held (need : Word) (s : State) : State := { s with dlyActive := true, dlyT0 := s.frCount, dlyNeed := need }

/-- The handler is due for an event. -/
def latched (e : Event) (d : Byte) (s : State) : State := { s with ipI2c := true, i2cEv := e, i2cEvData := d }

/-- With the labels to come. -/
def facing (ls : List Label) (s : State) : State := { s with agenda := ls }

/-! ### Looking at outcomes -/

/-- A next state that passes a check. -/
def gives (r : Result) (p : State → Bool) : Bool :=
  match r with
  | .next t => p t
  | .fault _ => false
  | .refused _ => false

/-- The response delivered last. -/
def said (r : Result) : Option Response :=
  match r with
  | .next t => t.resps.getLast?
  | .fault _ => none
  | .refused _ => none

/-- The next state, where there is one. -/
def nextOf (r : Result) (s : State) : State :=
  match r with
  | .next t => t
  | .fault _ => s
  | .refused _ => s

/-- What `nextOf` stands for. -/
theorem eq_nextOf {r : Result} (s : State) (h : gives r (fun _ => true) = true) : r = .next (nextOf r s) := by
  cases r with
  | next t => rfl
  | fault f => exact absurd h Bool.false_ne_true
  | refused x => exact absurd h Bool.false_ne_true

/-! ### Well-formedness: one ill-formed term for each check, each refused -/

/-- 30_encoding R82: bit 7 of an address is 0. -/
theorem smoke_address_bit7 :
    (Instr.i2cInit 0x80).wf cfg = false ∧ (Instr.i2cSetaddr 0xE8).wf cfg = false ∧ (Instr.i2cInit 0x7F).wf cfg = true := by decide

/-- 41_i2c_transport R127, T40, T41: a receive count is 1 to I2C_BUF_LEN. -/
theorem smoke_count :
    (Instr.i2cStartrx 0).wf cfg = false ∧ (Instr.i2cStartrx 33).wf cfg = false ∧ (Instr.i2cStartrx 32).wf cfg = true ∧
    (Instr.i2cStartrx 1).wf cfg = true := by decide

/-- 40_timebase R104, T16: a timestamp fits TB_WIDTH bits. -/
theorem smoke_stamp :
    (Instr.tbElapsed 0x100).wf cfg8 = false ∧ (Instr.tbElapsed 0xFF).wf cfg8 = true ∧
    (Instr.tbElapsed 0xFFFFFFFF).wf cfg = true := by decide

/-- 43_scheduler_gate R188, T72: the register number is listed. -/
theorem smoke_sreg :
    (Instr.sysRd 0x00).wf cfg = false ∧ (Instr.sysRd 0x04).wf cfg = false ∧ (Instr.sysRd 0x22).wf cfg = false ∧
    (Instr.sysRd 0x21).wf cfg = true := by decide

/-! ### Decoding: every row's word, written out from 30_encoding R81, R83, R90 -/

/-- The table words read as instructions. -/
def readAll (rows : List (Nat × Nat × Instr)) : Bool :=
  rows.all fun r => decide (decodeTableWord r.1 r.2.1 = some r.2.2)

theorem test_decode_sch : readAll [(8, 0x01, .schRun), (8, 0x02, .schRet), (16, 0x2104, .sysRd 0x21)] = true := by decide

theorem test_decode_tb : readAll [(8, 0x10, .tbStart), (8, 0x11, .tbStop), (8, 0x12, .tbNow),
    (40, 0xFFFFFFFB13, .tbElapsed 0xFFFFFFFB), (24, 0x010214, .dlyMs 0x0102), (24, 0x003215, .dlyUs 50)] = true := by decide

theorem test_decode_i2c : readAll [(16, 0x6820, .i2cInit 0x68), (16, 0x2721, .i2cSetaddr 0x27), (8, 0x22, .i2cReset),
    (16, 0x0E23, .i2cPush 0x0E), (8, 0x24, .i2cStarttx), (16, 0x1325, .i2cStartrx 19), (8, 0x26, .i2cWait),
    (8, 0x27, .i2cResult), (16, 0x0128, .i2cRxrd 1), (16, 0x0029, .i2cErrrd 0)] = true := by decide

theorem test_decode_gate : readAll [(8, 0x30, .gateReq), (8, 0x31, .gateRel)] = true := by decide

theorem test_decode_bus : readAll [(16, 0x0001, .busAck), (16, 0x0002, .busNack), (16, 0x2503, .busData 0x25),
    (16, 0x0004, .busStopped), (16, 0x0005, .busCollision)] = true := by decide

/-- The same five records, and `04 00` at the other port (T72). -/
theorem test_decode_ports :
    decode (.bus ⟨0x04, 0⟩) = .ok .busStopped ∧ decode (.cmd ⟨0x04, [0]⟩) = .ok (.sysRd 0) ∧
    decode (.bus ⟨0x01, 1⟩) = .error .notARecord ∧ decode (.bus ⟨0x06, 0⟩) = .error .notARecord := by decide

/-- T17, T18, T19, T56. -/
theorem test_decode_rejects :
    decode (.cmd ⟨0x10, [0x00]⟩) = .error .length ∧ decode (.cmd ⟨0x13, [0xFB, 0xFF, 0xFF]⟩) = .error .length ∧
    decode (.cmd ⟨0x16, []⟩) = .error .illegal ∧ decode (.cmd ⟨0x00, []⟩) = .error .illegal ∧
    decode (.cmd ⟨0xFF, [0x01, 0x02]⟩) = .error .illegal ∧ decode (.cmd ⟨0x21, []⟩) = .error .length := by decide

/-- A table word runs as the first instruction after reset. -/
theorem test_fetch_first : step (State.reset.withFetchWord 8 0x10) = exec .tbStart State.reset := rfl

/-! ### Unit TB -/

theorem test_tbStart : gives (exec .tbStart { off with tbCount := 9 })
    (fun t => t.tbCount == 0 && t.tbRun && t.resps == [⟨.ok, 0⟩]) = true := by decide

/-- T4. -/
theorem test_tbStop : gives (exec .tbStop { off with tbCount := 3, tbRun := true })
    (fun t => t.tbCount == 3 && !t.tbRun) = true := by decide

/-- T1, T3. -/
theorem test_tbNow : said (exec .tbNow off) = some ⟨.ok, 0⟩ ∧ said (exec .tbNow { off with tbCount := 3 }) = some ⟨.ok, 3⟩ := by
  decide

/-- T5, T7: across the wrap. -/
theorem test_tbElapsed_wraps : said (exec (.tbElapsed 0xFFFFFFFB) { off with tbCount := 5 }) = some ⟨.ok, 10⟩ ∧
    said (exec (.tbElapsed 1006) { off with tbCount := 1005 }) = some ⟨.ok, 0xFFFFFFFF⟩ := by decide

/-- Program P5: eight bits. -/
theorem test_tbElapsed_narrow : said (exec (.tbElapsed 250) { off with cfg := cfg8, tbCount := 4 }) = some ⟨.ok, 10⟩ ∧
    said (exec (.tbElapsed 0x100) { off with cfg := cfg8, tbCount := 4 }) = some ⟨.operand, 0⟩ := by decide

/-- T15. -/
theorem test_dlyMs_longest : gives (exec (.dlyMs 65535) { off with frCount := 7 })
    (fun t => t.dlyNeed == 0x03E7FC18 && t.dlyT0 == 7 && t.dlyActive && t.resps == []) = true := by decide

/-- T11. -/
theorem test_dlyMs_zero : gives (exec (.dlyMs 0) off) (fun t => !t.dlyActive && t.resps == [⟨.ok, 0⟩]) = true := by decide

/-- T13. -/
theorem test_dlyUs : gives (exec (.dlyUs 50) { off with frCount := 10 })
    (fun t => t.dlyNeed == 50 && t.dlyT0 == 10 && t.dlyActive) = true := by decide

/-- T12: the hold ends at the microsecond that completes it, across the wrap, and not before. -/
theorem test_usTick_ends_hold :
    gives (step { off with dlyActive := true, dlyT0 := 0xFFFFFF00, dlyNeed := 2000, frCount := 0x6CF, agenda := [.usTick] })
      (fun t => !t.dlyActive && t.frCount == 0x6D0 && t.resps == [⟨.ok, 0⟩]) = true ∧
    gives (step { off with dlyActive := true, dlyT0 := 0xFFFFFF00, dlyNeed := 2000, frCount := 0x6CE, agenda := [.usTick] })
      (fun t => t.dlyActive && t.resps == []) = true := by decide

/-- T2, T8. -/
theorem test_tick : gives (step (facing [.tick] off)) (fun t => !t.ipTick && t.tbCount == 0) = true ∧
    gives (step { off with tbRun := true, tbCount := 0xFFFFFFFF, ipTick := true }) (fun t => !t.ipTick && t.tbCount == 0) = true := by
  decide

/-! ### Unit I2C, host side -/

/-- T93. -/
theorem test_i2cInit : gives (exec (.i2cInit 0x68) off)
    (fun t => sregValue t 0x10 == 0x3F && t.i2cAddr == 0x68 && sregValue t 0x12 == 0) = true := by decide

/-- T33. -/
theorem test_i2cSetaddr : gives (exec (.i2cSetaddr 0x27) idle) (fun t => t.i2cAddr == 0x27) = true := by decide

/-- T45. -/
theorem test_i2cReset_busy : gives (exec .i2cReset txT)
    (fun t => t.wire == txT.wire ++ [.stop] && sregValue t 0x12 == 0 && t.trace == []) = true := by decide

/-- T46. -/
theorem test_i2cReset_idle : gives (exec .i2cReset { idle with i2cError := true })
    (fun t => t.wire == [] && t.succeeded) = true := by decide

/-- T36. -/
theorem test_i2cPush : gives (exec (.i2cPush 0x06) { idle with i2cTxbuf := [(0, 0x0E)], i2cTxlen := 1 })
    (fun t => t.i2cTxbuf == [(0, 0x0E), (1, 0x06)] && sregValue t 0x14 == 2 && t.resps == [⟨.ok, 1⟩]) = true := by decide

/-- T44. -/
theorem test_i2cPush_collides : gives (exec (.i2cPush 0x55) addrT)
    (fun t => t.ipI2c && t.i2cEv == .wcol && t.i2cTxlen == 2 && t.resps == [⟨.ok, 0⟩]) = true := by decide

/-- T38. -/
theorem test_i2cStarttx : gives (exec .i2cStarttx filled)
    (fun t => sregValue t 0x12 == 0x00020005 && t.wire == [.start, .ad 0x68 .transmit] && t.resps == [⟨.ok, 1⟩]) = true := by
  decide

/-- T39. -/
theorem test_i2cStartrx : gives (exec (.i2cStartrx 19) idle)
    (fun t => sregValue t 0x12 == 0x00130025 && t.wire == [.start, .ad 0x68 .receive]) = true := by decide

/-- T48: the third turn posts the timeout, the second does not. -/
theorem test_i2cWait_bound : gives (exec .i2cWait { addrT with i2cToCnt := 2 })
      (fun t => t.ipI2c && t.i2cEv == .timeout && t.resps == [⟨.ok, 1⟩]) = true ∧
    gives (exec .i2cWait { addrT with i2cToCnt := 1 }) (fun t => !t.ipI2c && t.i2cToCnt == 2) = true := by decide

/-- T47. -/
theorem test_i2cWait_idle : gives (exec .i2cWait idle) (fun t => t.i2cToCnt == 0 && t.resps == [⟨.ok, 0⟩]) = true := by decide

/-- T35, T22, and an operation outstanding. -/
theorem test_i2cResult : said (exec .i2cResult idle) = some ⟨.ok, 1⟩ ∧
    said (exec .i2cResult { idle with i2cError := true }) = some ⟨.ok, 0⟩ ∧ said (exec .i2cResult addrT) = some ⟨.ok, 0⟩ := by
  decide

/-- T49. -/
theorem test_i2cRxrd : said (exec (.i2cRxrd 1) { idle with i2cRxbuf := [(1, 0x59), (2, 0x23)], i2cRxlen := 3 }) = some ⟨.ok, 0x59⟩ ∧
    said (exec (.i2cRxrd 3) { idle with i2cRxbuf := [(1, 0x59), (2, 0x23)], i2cRxlen := 3 }) = some ⟨.operand, 0⟩ := by decide

/-- T51: ANACK was overwritten by TIMEOUT at place 0, DNACK stands at place 1. -/
theorem test_i2cErrrd :
    let s := { idle with i2cErrlog := [(0, 4), (1, 2)], i2cErrHead := 1, i2cErrCount := 2 }
    sregValue s 0x15 = 0x00000102 ∧ said (exec (.i2cErrrd 0) s) = some ⟨.ok, 4⟩ ∧
    said (exec (.i2cErrrd 1) s) = some ⟨.ok, 2⟩ ∧ said (exec (.i2cErrrd 2) s) = some ⟨.operand, 0⟩ := by decide

/-! ### Unit I2C, bus side: the response, and the arm that its event selects -/

/-- The first acknowledge of T20. -/
theorem test_busAck : gives (exec .busAck addrT)
    (fun t => t.ipI2c && t.i2cEv == .ack && t.wire == addrT.wire ++ [.ack] && t.i2cPhase == .addr) = true := by decide

/-- T23, and the receive of T24. -/
theorem test_busAck_arm : gives (i2cIsr (latched .ack 0 addrT)) (fun t => sregValue t 0x12 == 0x00020009 && !t.ipI2c) = true ∧
    gives (i2cIsr (latched .ack 0 txT)) (fun t => sregValue t 0x12 == 0x00020109) = true ∧
    gives (i2cIsr (latched .ack 0 txT2)) (fun t => sregValue t 0x12 == 0x00020211) = true ∧
    gives (i2cIsr (latched .ack 0 addrR)) (fun t => t.i2cPhase == .rx && t.i2cBusy) = true := by decide

theorem test_busNack : gives (exec .busNack txT2)
    (fun t => t.ipI2c && t.i2cEv == .nack && t.wire == txT2.wire ++ [.nack]) = true := by decide

/-- T22's fault in the address, T26's in the second byte. -/
theorem test_busNack_arm : gives (i2cIsr (latched .nack 0 addrT))
      (fun t => t.trace == [.cb (.fault .anack)] && t.i2cErrlog == [(0, 1)] && t.i2cErrHead == 1 && t.i2cErrCount == 1) = true ∧
    gives (i2cIsr (latched .nack 0 txT2))
      (fun t => t.trace == [.cb (.fault .dnack)] && sregValue t 0x12 == 0x00020102 && t.wire == txT2.wire ++ [.stop]) = true := by
  decide

theorem test_busData : gives (exec (.busData 0x40) rxR2)
    (fun t => t.i2cEv == .data && t.i2cEvData == 0x40 && t.wire == rxR2.wire ++ [.received 0x40]) = true := by decide

/-- T24: the first byte is acknowledged, the last is not. -/
theorem test_busData_arm : gives (i2cIsr (latched .data 0x19 rxR))
      (fun t => t.i2cRxbuf == [(0, 0x19)] && t.i2cRxlen == 1 && t.wire == rxR.wire ++ [.masterAck] && t.i2cEvData == 0) = true ∧
    gives (i2cIsr (latched .data 0x40 rxR2))
      (fun t => t.i2cRxbuf == [(0, 0x19), (1, 0x40)] && sregValue t 0x14 == 0x0200 && t.i2cPhase == .stop &&
        t.wire == rxR2.wire ++ [.masterNack, .stop]) = true := by decide

theorem test_busStopped : gives (exec .busStopped stopT) (fun t => t.i2cEv == .stopped && t.wire == stopT.wire) = true := by decide

/-- The end of T20. -/
theorem test_busStopped_arm : gives (i2cIsr (latched .stopped 0 stopT))
    (fun t => t.trace == [.cb .done] && sregValue t 0x12 == 0x00020200) = true := by decide

theorem test_busCollision : gives (exec .busCollision txT) (fun t => t.i2cEv == .wcol && t.wire == txT.wire) = true := by decide

/-- T28 drives a stop condition, T29 no second one. -/
theorem test_busCollision_arm : gives (i2cIsr (latched .wcol 0 txT))
      (fun t => t.trace == [.cb (.fault .wcol)] && t.wire == txT.wire ++ [.stop]) = true ∧
    gives (i2cIsr (latched .wcol 0 stopT)) (fun t => t.wire == stopT.wire && t.i2cError && !t.i2cBusy) = true := by decide

/-! ### Unit SCH and the gate -/

/-- T61, T65. -/
theorem test_schRun : gives (exec .schRun off) (fun t => t.schRunning && t.schSlot == 0 && !t.schInPoll) = true ∧
    gives (exec .schRun { off with cfg := { cfg with schEnableMask := 0b000100 } }) (fun t => sregValue t 0x20 == 0x09) = true := by
  decide

/-- T63, T64. -/
theorem test_schRet : gives (exec .schRet (inPoll 2 off)) (fun t => t.schSlot == 0 && !t.schInPoll && t.schRunning) = true ∧
    gives (exec .schRet { inPoll 0 off with cfg := { cfg with schEnableMask := 0b101001 } }) (fun t => t.schSlot == 3) = true := by
  decide

/-- T61: the poll, and the loop's status inside it. -/
theorem test_poll : gives (step (facing [.poll] (between off)))
    (fun t => sregValue t 0x20 == 0x03 && t.trace == [.poll 0]) = true := by decide

/-- T73. -/
theorem test_sysRd_reset : [0x10, 0x12, 0x15, 0x20, 0x21].all (fun r => said (exec (.sysRd r) off) == some ⟨.ok, 0⟩) = true := by
  decide

/-- 10_state R31, R32, R47: a receive of two bytes in `PH_RX` (3) is busy 1, phase 3, direction 1, length 2. -/
theorem test_sysRd_receive : said (exec (.sysRd 0x12) rxR) = some ⟨.ok, 0x0002002D⟩ := by decide

/-- T66, T72. -/
theorem test_sysRd : said (exec (.sysRd 0x21) { off with gateHeld := true, gateOwner := 7 }) = some ⟨.ok, 0x0F⟩ ∧
    [0x00, 0x04, 0x22].all (fun r => said (exec (.sysRd r) off) == some ⟨.operand, 0⟩) = true := by decide

/-- T66, T67. -/
theorem test_gateReq : gives (exec .gateReq off) (fun t => t.gateHeld && t.gateOwner == 7 && t.resps == [⟨.ok, 1⟩]) = true ∧
    gives (exec .gateReq (inPoll 0 off)) (fun t => sregValue t 0x21 == 0x01) = true := by decide

/-- T68, T69. -/
theorem test_gateReq_refused : said (exec .gateReq (inPoll 1 (denied idle))) = some ⟨.ok, 0⟩ ∧
    said (exec .gateReq (inPoll 1 addrT)) = some ⟨.ok, 0⟩ := by decide

/-- T66, T70, T71. -/
theorem test_gateRel : gives (exec .gateRel { off with gateHeld := true, gateOwner := 7 })
      (fun t => sregValue t 0x21 == 0x0E && t.resps == [⟨.ok, 1⟩]) = true ∧
    said (exec .gateRel (inPoll 0 (denied addrT))) = some ⟨.state, 0⟩ ∧ said (exec .gateRel off) = some ⟨.ok, 0⟩ := by decide

/-- T80: both requests pend, the tick is served first. -/
theorem test_coincident : gives (step (facing [.tickBus ⟨0x01, 0⟩] { addrT with tbRun := true, tbCount := 9 }))
      (fun t => t.ipTick && t.ipI2c && t.tbCount == 9) = true ∧
    gives (step { latched .ack 0 addrT with tbRun := true, tbCount := 9, ipTick := true })
      (fun t => t.tbCount == 10 && t.ipI2c && t.i2cPhase == .addr) = true := by decide

/-! ### Clients -/

/-- The responses of an operation of three commands up to its loop, one busy turn, and the answer of `I2C.RESULT`. -/
def operation (pushes : Nat) (result : Word) : List Response :=
  [⟨.ok, 0⟩, ⟨.ok, 0⟩] ++ List.replicate pushes ⟨.ok, 1⟩ ++ [⟨.ok, 1⟩, ⟨.ok, 1⟩, ⟨.ok, 0⟩, ⟨.ok, result⟩]

/-- T10. -/
theorem test_expired : expiredCheck 1000 5 [] = .issue (.tbElapsed 1000) ∧ expiredCheck 1000 5 [⟨.ok, 5⟩] = .success true [] ∧
    expiredCheck 1000 6 [⟨.ok, 5⟩] = .success false [] := by decide

/-- T20, T22: the commands in order, and the two results. -/
theorem test_transmit : transmit 0x68 [0x0E, 0x06] ((operation 2 1).take 3) = .issue (.i2cPush 0x06) ∧
    transmit 0x68 [0x0E, 0x06] ((operation 2 1).take 6) = .issue .i2cWait ∧
    transmit 0x68 [0x0E, 0x06] (operation 2 1) = .success () [] ∧ transmit 0x68 [0x0E, 0x06] (operation 2 0) = .failure [] ∧
    transmit 0x68 [0x0E, 0x06] [⟨.denied, 0⟩] = .failure [] := by decide

/-- T24, T27: the bytes are read after a success and not after a failure. -/
theorem test_receive : receive 0x68 2 (operation 0 1) = .issue (.i2cRxrd 0) ∧
    receive 0x68 2 (operation 0 1 ++ [⟨.ok, 0x19⟩, ⟨.ok, 0x40⟩]) = .success [0x19, 0x40] [] ∧
    receive 0x68 1 (operation 0 0) = .failure [] := by decide

/-- 41_i2c_transport R139: the second operation only after the first succeeded. -/
theorem test_regread : regread 0x68 0x00 1 (operation 1 1) = .issue (.i2cSetaddr 0x68) ∧
    regread 0x68 0x00 1 (operation 1 0) = .failure [] ∧
    regread 0x68 0x00 1 (operation 1 1 ++ operation 0 1 ++ [⟨.ok, 0x56⟩]) = .success [0x56] [] := by decide

/-- 43_scheduler_gate R190: denied; granted; the first operation fails and the gate is released; both succeed. -/
theorem test_gated :
    let seq := [.transmit 0x20 [0x00], .receive 0x68 1]
    gated seq [⟨.ok, 0⟩] = .failure [] ∧ gated seq [⟨.ok, 1⟩] = .issue (.i2cSetaddr 0x20) ∧
    gated seq (⟨.ok, 1⟩ :: operation 1 0) = .issue .gateRel ∧ gated seq (⟨.ok, 1⟩ :: operation 1 0 ++ [⟨.ok, 1⟩]) = .failure [] ∧
    gated seq (⟨.ok, 1⟩ :: operation 1 1 ++ operation 0 1 ++ [⟨.ok, 0x56⟩]) = .issue .gateRel ∧
    gated seq (⟨.ok, 1⟩ :: operation 1 1 ++ operation 0 1 ++ [⟨.ok, 0x56⟩, ⟨.ok, 1⟩]) = .success [[], [0x56]] [] ∧
    gatedOverPolls seq (⟨.ok, 1⟩ :: operation 1 1) = .issue .schRet := by decide

/-- A client's next command is what the next step runs. -/
theorem test_presentNext : step (idle.presentNext (transmit 0x27 []) []) = exec (.i2cSetaddr 0x27) idle := rfl

/-! ### Witnesses: running and decoding -/

/-- A label that is next, quiet and with no hold, and what follows waits behind it. -/
def ready (l : Label) (s : State) : State := facing [l, .tick] s

theorem witness_StepRunsDecodedPacket :
    let s := ready (encode (.i2cStartrx 32)) idle
    s.quiet ∧ s.dlyActive = false ∧ s.agenda = .cmd ⟨0x25, [0x20]⟩ :: [.tick] ∧
    decode (.cmd ⟨0x25, [0x20]⟩) = .ok (.i2cStartrx 32) := by decide

theorem witness_StepRunsDecodedRecord :
    let s := ready (.bus ⟨0x03, 0xFF⟩) (held 5 rxR)
    let u := ready (.tickBus ⟨0x03, 0xFF⟩) (held 5 rxR)
    s.quiet ∧ decode (.bus ⟨0x03, 0xFF⟩) = .ok (.busData 0xFF) ∧ s.agenda = .bus ⟨0x03, 0xFF⟩ :: [.tick] ∧
    u.quiet ∧ u.agenda = .tickBus ⟨0x03, 0xFF⟩ :: [.tick] ∧
    gives (exec (.busData 0xFF) { u with agenda := [.tick] }) (fun _ => true) = true := by decide

theorem witness_PendingRequestIsServedFirst :
    { latched .ack 0 addrT with ipTick := true }.ipTick = true ∧
    (latched .ack 0 addrT).ipTick = false ∧ (latched .ack 0 addrT).ipI2c = true := by decide

theorem witness_EncodeInvertsDecode :
    decode (.cmd ⟨0x13, [0xFB, 0xFF, 0xFF, 0xFF]⟩) = .ok (.tbElapsed 0xFFFFFFFB) ∧
    decode (.bus ⟨0x03, 0xFF⟩) = .ok (.busData 0xFF) := by decide

/-- The ends of every reserved range, at lengths 1 and 3, and their neighbours, which are no reserved opcodes. -/
theorem witness_ReservedOpcodesAreIllegal :
    [0x00, 0x03, 0x05, 0x0F, 0x16, 0x1F, 0x2A, 0x2F, 0x32, 0xFF].all (fun op =>
      decide (decode (.cmd ⟨op, []⟩) = .error .illegal) && decide (decode (.cmd ⟨op, [1, 2]⟩) = .error .illegal)) = true ∧
    [0x01, 0x02, 0x04, 0x10, 0x15, 0x20, 0x29, 0x30, 0x31].all (fun op =>
      !decide (decode (.cmd ⟨op, []⟩) = .error .illegal)) = true ∧
    (let s := ready (.cmd ⟨0x16, []⟩) off
     s.quiet ∧ s.dlyActive = false ∧ s.agenda = .cmd ⟨0x16, []⟩ :: [.tick]) := by decide

/-- One byte too few and one too many for each format, and the right lengths, which are no case of it. -/
theorem witness_WrongLengthIsRejected :
    [(0x10, [0x00]), (0x31, [0x00, 0x00]), (0x04, []), (0x29, [0, 0]), (0x14, [0]), (0x15, [0, 0, 0]), (0x13, [1, 2, 3]),
     (0x13, [1, 2, 3, 4, 5])].all (fun q => decide (decode (.cmd ⟨q.1, q.2⟩) = .error .length)) = true ∧
    [(0x10, []), (0x04, [0]), (0x14, [0, 0]), (0x13, [1, 2, 3, 4])].all
      (fun q => !decide (decode (.cmd ⟨q.1, q.2⟩) = .error .length)) = true ∧
    (let s := ready (.cmd ⟨0x10, [0x00]⟩) off
     s.quiet ∧ s.dlyActive = false ∧ s.agenda = .cmd ⟨0x10, [0x00]⟩ :: [.tick]) := by decide

/-- Lengths next to the right one of each format (30_encoding R81), for the `Encoded` parts of the commands' statements. -/
theorem witness_Encoded_lengths :
    ([] : List Byte).length ≠ 1 ∧ [(0 : Byte), 0].length ≠ 1 ∧ [(0 : Byte)].length ≠ 2 ∧ [(0 : Byte), 0, 0].length ≠ 2 ∧
    [(0 : Byte), 0, 0].length ≠ 4 ∧ [(0 : Byte), 0, 0, 0, 0].length ≠ 4 := by decide

/-! ### Witnesses: rejections, for the `RejectsAsTabled` part of the commands' statements (60_exceptions R212) -/

theorem witness_rejects_TbStart : rejection .tbStart (between off) = some .state := by decide
theorem witness_rejects_TbStop : rejection .tbStop (between off) = some .state := by decide
theorem witness_rejects_TbNow : rejection .tbNow (between off) = some .state := by decide

theorem witness_rejects_TbElapsed : rejection (.tbElapsed 0x100) { between off with cfg := cfg8 } = some .operand ∧
    rejection (.tbElapsed 0xFF) { between off with cfg := cfg8 } = some .state := by decide

theorem witness_rejects_DlyMs : rejection (.dlyMs 0) (between off) = some .state := by decide
theorem witness_rejects_DlyUs : rejection (.dlyUs 0xFFFF) (between off) = some .state := by decide

theorem witness_rejects_I2cInit : rejection (.i2cInit 0x80) (between off) = some .operand ∧
    rejection (.i2cInit 0x7F) (between off) = some .state ∧ rejection (.i2cInit 0x7F) (denied off) = some .denied ∧
    rejection (.i2cInit 0x20) idle = some .state := by decide

theorem witness_rejects_I2cSetaddr : rejection (.i2cSetaddr 0x80) off = some .operand ∧
    rejection (.i2cSetaddr 0x7F) (between off) = some .state ∧ rejection (.i2cSetaddr 0x7F) off = some .notInit ∧
    rejection (.i2cSetaddr 0x20) (denied addrT) = some .denied ∧ rejection (.i2cSetaddr 0x20) addrT = some .state := by decide

theorem witness_rejects_I2cReset : rejection .i2cReset (between idle) = some .state ∧ rejection .i2cReset off = some .notInit ∧
    rejection .i2cReset (denied idle) = some .denied := by decide

/-- T37: the buffer is full at 32 and takes one more byte at 31. -/
theorem witness_rejects_I2cPush : rejection (.i2cPush 0) (between idle) = some .state ∧ rejection (.i2cPush 0) off = some .notInit ∧
    rejection (.i2cPush 0) (denied idle) = some .denied ∧ rejection (.i2cPush 0xAA) { idle with i2cTxlen := 32 } = some .state ∧
    rejection (.i2cPush 0xAA) { idle with i2cTxlen := 31 } = none := by decide

theorem witness_rejects_I2cStarttx : rejection .i2cStarttx (between idle) = some .state ∧
    rejection .i2cStarttx off = some .notInit ∧ rejection .i2cStarttx (denied idle) = some .denied := by decide

theorem witness_rejects_I2cStartrx : rejection (.i2cStartrx 0) (between idle) = some .operand ∧
    rejection (.i2cStartrx 33) idle = some .operand ∧ rejection (.i2cStartrx 32) (between idle) = some .state ∧
    rejection (.i2cStartrx 1) off = some .notInit ∧ rejection (.i2cStartrx 1) (denied idle) = some .denied := by decide

theorem witness_rejects_I2cWait : rejection .i2cWait (between idle) = some .state ∧ rejection .i2cWait off = some .notInit ∧
    rejection .i2cWait (denied addrT) = some .denied := by decide

theorem witness_rejects_I2cResult : rejection .i2cResult (between idle) = some .state ∧
    rejection .i2cResult off = some .notInit ∧ rejection .i2cResult (denied idle) = none := by decide

theorem witness_rejects_I2cRxrd : rejection (.i2cRxrd 0) (between idle) = some .state ∧
    rejection (.i2cRxrd 0) off = some .notInit ∧ rejection (.i2cRxrd 3) { idle with i2cRxlen := 3 } = some .operand := by decide

theorem witness_rejects_I2cErrrd : rejection (.i2cErrrd 0) (between idle) = some .state ∧
    rejection (.i2cErrrd 0) off = some .notInit ∧ rejection (.i2cErrrd 0) idle = some .operand := by decide

theorem witness_rejects_SchRun : rejection .schRun (between off) = some .state ∧ rejection .schRun (inPoll 0 off) = some .state := by
  decide

theorem witness_rejects_SchRet : rejection .schRet off = some .state ∧ rejection .schRet (between off) = some .state := by decide

theorem witness_rejects_SysRd : rejection (.sysRd 0x22) (between off) = some .operand ∧
    rejection (.sysRd 0x21) (between off) = some .state := by decide

theorem witness_rejects_GateReq : rejection .gateReq (between off) = some .state := by decide

theorem witness_rejects_GateRel : rejection .gateRel (between off) = some .state ∧
    rejection .gateRel (inPoll 0 (denied addrT)) = some .state := by decide

/-! ### Witnesses: the commands' own effects -/

/-- `TB.START`, `TB.STOP`, `GATE.REL` of a requester that owns nothing, and the like: the context is open for `main` and in a poll. -/
theorem witness_TbStartZeroesAndArms : off.ctxOpen ∧ (inPoll 5 off).ctxOpen := by decide
theorem witness_TbStopKeepsCount : { off with tbRun := true }.ctxOpen := by decide

theorem witness_TbNowReadsCount :
    let s := { off with cfg := cfg8, tbCount := 255 }
    s.ctxOpen ∧ s.tbCount.toNat < 2 ^ s.cfg.tbWidth := by decide

theorem witness_TbElapsedSubtractsModularly :
    let s := { off with tbCount := 5 }
    s.cfg.wf ∧ s.ctxOpen ∧ (0xFFFFFFFF : Word).toNat < 2 ^ s.cfg.tbWidth := by decide

theorem witness_DlyMsOpensHold : off.ctxOpen ∧ (0 : Half) = 0 ∧ (1 : Half) ≠ 0 ∧ (0xFFFF : Half) ≠ 0 := by decide
theorem witness_DlyUsOpensHold : off.ctxOpen ∧ (0 : Half) = 0 ∧ (1 : Half) ≠ 0 ∧ (0xFFFF : Half) ≠ 0 := by decide

/-- One microsecond short of the end, and the end, across the wrap of `fr_count`. -/
theorem witness_HoldLastsExactlyItsMicroseconds :
    let s := held 3 { off with frCount := 0xFFFFFFFE }
    s.quiet ∧ s.dlyActive = true ∧ s.dlyT0 = s.frCount ∧ s.dlyNeed = 3 ∧ 3 ≤ (3 : Word).toNat ∧ (3 : Word) ≠ 0 ∧
    [0, 2, 3].all (fun k => gives (core.run k (facing (List.replicate k .usTick) s)) (fun _ => true)) = true ∧
    2 < (3 : Word).toNat := by decide

/-- A hold that goes on beside a waiting packet, and one that ends. -/
theorem witness_HoldKeepsHostBack :
    let s := facing [encode .tbNow, .usTick] (held 2 off)
    let u := facing [encode .tbNow, .usTick] (held 1 off)
    s.quiet ∧ s.dlyActive = true ∧ gives (step s) (fun t => t.dlyActive && t.agenda == [encode .tbNow]) = true ∧
    u.quiet ∧ u.dlyActive = true ∧ gives (step u) (fun t => !t.dlyActive && t.resps == [⟨.ok, 0⟩]) = true := by decide

theorem witness_TickCountsOneAndWraps :
    (ready .tick off).quiet ∧ (ready .tick off).agenda = .tick :: [.tick] ∧
    { off with tbCount := 0xFFFFFFFF, ipTick := true }.ipTick = true ∧ off.cfg.wf ∧
    { off with cfg := cfg8, tbCount := 255, ipTick := true }.cfg.wf := by decide

theorem witness_UsTickCountsOne :
    let s := ready .usTick { off with frCount := 0xFFFFFFFF }
    s.quiet ∧ s.dlyActive = false ∧ s.agenda = .usTick :: [.tick] := by decide

/-- The tick that is served, and `TB.START`. -/
theorem witness_TbCountHasTwoWriters :
    gives (step { off with ipTick := true }) (fun t => t.tbCount != off.tbCount) = true ∧
    gives (step (facing [encode .tbStart] { off with tbCount := 9 })) (fun t => t.tbCount != 9) = true := by decide

theorem witness_ElapsedMeasuresServedTicks :
    let s := { off with cfg := cfg8, tbCount := 255 }
    s.cfg.wf ∧ s.ctxOpen ∧ s.tbCount.toNat < 2 ^ s.cfg.tbWidth := by decide

/-- Each of the nine, executed, with the other side in use. -/
theorem witness_TimeSourcesAreIndependent :
    (let s := { held 5 off with tbRun := true, tbCount := 7 }
     [perform .tick, fun s => .next (tickIsr s), exec .tbStart, exec .tbStop, exec .tbNow, exec (.tbElapsed 0xFFFFFFFF)].all
       (fun run => gives (run s) (fun t => t.dlyActive && t.dlyNeed == 5)) = true) ∧
    (let s := { off with tbRun := true, tbCount := 7, ipTick := true }
     [perform .usTick, exec (.dlyMs 0), exec (.dlyUs 0xFFFF)].all
       (fun run => gives (run s) (fun t => t.tbCount == 7 && t.tbRun && t.ipTick)) = true) := by decide

theorem witness_I2cInitSetsUpTransport :
    (0x7F : Byte).toNat < 128 ∧ off.ctxOpen ∧ off.gateOpen ∧ off.i2cInited = false := by decide

theorem witness_I2cSetaddrChangesAddressOnly :
    (0x7F : Byte).toNat < 128 ∧ idle.ctxOpen ∧ idle.i2cInited = true ∧ idle.gateOpen ∧ idle.i2cBusy = false := by decide

/-- The controller idle, mid-transfer, and with its stop condition driven; in a poll whose slot owns the gate. -/
theorem witness_I2cResetReturnsToIdle :
    [idle, txT, stopT, inPoll 0 (denied rxR)].all
      (fun s => decide (s.ctxOpen ∧ s.i2cInited = true ∧ s.gateOpen)) = true := by decide

/-- A collision, and a push at the last free index. -/
theorem witness_I2cPushAppendsOneByte :
    (addrT.ctxOpen ∧ addrT.i2cInited = true ∧ addrT.gateOpen ∧ addrT.i2cBusy = true) ∧
    (let s := { filled with i2cTxlen := 31 }
     s.ctxOpen ∧ s.i2cInited = true ∧ s.gateOpen ∧ s.i2cBusy = false ∧ s.i2cTxlen.toNat < s.cfg.i2cBufLen ∧
     s.i2cTxbuf.wf = true) := by decide

theorem witness_I2cStarttxBeginsTransmit :
    (txT.ctxOpen ∧ txT.i2cInited = true ∧ txT.gateOpen ∧ txT.i2cBusy = true) ∧
    (filled.ctxOpen ∧ filled.i2cInited = true ∧ filled.gateOpen ∧ filled.i2cBusy = false) := by decide

/-- The counts 1 and I2C_BUF_LEN, idle and busy. -/
theorem witness_I2cStartrxBeginsReceive :
    1 ≤ (1 : Byte).toNat ∧ (32 : Byte).toNat ≤ idle.cfg.i2cBufLen ∧
    (idle.ctxOpen ∧ idle.i2cInited = true ∧ idle.gateOpen ∧ idle.i2cBusy = false) ∧
    (rxR.ctxOpen ∧ rxR.i2cInited = true ∧ rxR.gateOpen ∧ rxR.i2cBusy = true) := by decide

/-- Idle, the turn before the bound, the turn that reaches it. -/
theorem witness_I2cWaitCountsAndTimesOut :
    let s := { addrT with i2cToCnt := 1 }
    let u := { addrT with i2cToCnt := 2 }
    (idle.ctxOpen ∧ idle.i2cInited = true ∧ idle.gateOpen ∧ idle.i2cBusy = false) ∧
    (s.ctxOpen ∧ s.i2cInited = true ∧ s.gateOpen ∧ s.i2cBusy = true ∧ (s.i2cToCnt + 1).toNat ≠ s.cfg.i2cTimeoutCycles) ∧
    (u.ctxOpen ∧ u.i2cInited = true ∧ u.gateOpen ∧ u.i2cBusy = true ∧ (u.i2cToCnt + 1).toNat = u.cfg.i2cTimeoutCycles) := by
  decide

theorem witness_I2cResultTellsSuccess : (denied addrT).ctxOpen ∧ (denied addrT).i2cInited = true := by decide

theorem witness_I2cRxrdReadsReceivedByte :
    let s := { idle with i2cRxlen := 32 }
    s.ctxOpen ∧ s.i2cInited = true ∧ (31 : Byte).toNat < s.i2cRxlen.toNat ∧ s.i2cRxlen.toNat ≤ s.cfg.i2cBufLen := by decide

theorem witness_I2cErrrdReadsByAge :
    let s := { idle with i2cErrlog := [(0, 4), (1, 2)], i2cErrHead := 1, i2cErrCount := 2 }
    s.ctxOpen ∧ s.i2cInited = true ∧ (1 : Byte).toNat < s.i2cErrCount.toNat ∧ s.cfg.wf := by decide

/-! ### Witnesses: bus responses and the handlers -/

theorem witness_BusResponsesLatchTheirEvent :
    (addrT.quiet ∧ addrT.i2cPhase = .addr) ∧ (txT.quiet ∧ txT.i2cPhase = .tx) ∧ (rxR.quiet ∧ rxR.i2cPhase = .rx) ∧
    (stopT.quiet ∧ stopT.i2cPhase = .stop ∧ stopT.i2cPhase ≠ .idle) := by decide

/-- T31, T31a, T31b. -/
theorem witness_UnfitResponsesDoNothing :
    ¬(latched .ack 0 txT).quiet ∧ (rxR.i2cPhase ≠ .addr ∧ rxR.i2cPhase ≠ .tx) ∧ txT.i2cPhase ≠ .rx ∧ rxR.i2cPhase ≠ .stop ∧
    idle.i2cPhase = .idle := by decide

theorem witness_AckMovesOperationOn :
    (addrR.i2cPhase = .addr ∧ addrR.i2cDir = .receive) ∧
    (let s := { addrT with i2cLen := 0, i2cTxlen := 0 }
     s.i2cPhase = .addr ∧ s.i2cDir = .transmit ∧ s.i2cLen = 0) ∧
    (addrT.i2cPhase = .addr ∧ addrT.i2cDir = .transmit ∧ addrT.i2cLen ≠ 0 ∧ 0 < addrT.cfg.i2cBufLen) ∧
    (txT2.i2cPhase = .tx ∧ txT2.i2cIdx + 1 = txT2.i2cLen) ∧
    (txT.i2cPhase = .tx ∧ txT.i2cIdx + 1 ≠ txT.i2cLen ∧ (txT.i2cIdx + 1).toNat < txT.cfg.i2cBufLen) := by decide

/-- A byte on the way, and the last byte, at index 31 of a receive of 32. -/
theorem witness_DataByteIsStoredInOrder :
    (rxR.i2cPhase = .rx ∧ rxR.i2cIdx.toNat < rxR.cfg.i2cBufLen ∧ rxR.i2cIdx + 1 ≠ rxR.i2cLen) ∧
    (let s := { rxR with i2cLen := 32, i2cIdx := 31, i2cRxlen := 31 }
     s.i2cPhase = .rx ∧ s.i2cIdx.toNat < s.cfg.i2cBufLen ∧ s.i2cIdx + 1 = s.i2cLen ∧ s.i2cRxbuf.wf = true) := by decide

/-- The ring full and its head at the last entry; each of the four classes. -/
theorem witness_FaultCallbackRecordsAndIdles :
    let ring := fun s : State => { s with i2cErrlog := [(0, 1), (1, 2)], i2cErrHead := 1, i2cErrCount := 2 }
    (ring addrT).cfg.wf ∧ (ring addrT).i2cErrHead.toNat < (ring addrT).cfg.i2cErrlogLen ∧
    (ring addrT).i2cErrCount.toNat ≤ (ring addrT).cfg.i2cErrlogLen ∧ (ring addrT).i2cErrlog.wf = true ∧
    (ring addrT).i2cPhase = .addr ∧ (ring txT2).i2cPhase = .tx ∧ (ring stopT).i2cPhase ≠ .idle ∧ (ring rxR).i2cPhase ≠ .idle := by
  decide

theorem witness_StopCompletesOperation : stopT.i2cPhase = .stop := by decide

theorem witness_UnlistedEventsReturnUnchanged :
    idle.i2cPhase = .idle ∧ (Event.data = .data ∧ txT.i2cPhase ≠ .rx) ∧ (Event.stopped = .stopped ∧ rxR.i2cPhase ≠ .stop) ∧
    rxR.i2cPhase = .rx ∧ stopT.i2cPhase = .stop := by decide

/-! ### Witnesses: states that meet the invariant -/

/-- The labels to come are no part of the invariant. -/
theorem facing_inv {s : State} (ls : List Label) (h : s.Inv) : (facing ls s).Inv :=
  ⟨h.cfg, { h.timebase with }, { h.transport with }, { h.scheduler with }⟩

/-- A receive awaiting its first byte. -/
theorem rxR_inv : rxR.Inv := by
  refine ⟨by decide, ⟨by decide, nofun, nofun⟩, ?_, ⟨nofun, nofun, by decide, by decide⟩⟩
  exact {
    callbacks := rfl, busyPhase := by decide, busyInited := fun _ => rfl, idxLen := by decide, lenCap := by decide,
    txCap := by decide, rxCap := by decide, phase := ⟨rfl, by decide, rfl⟩, toBound := by decide,
    toPending := fun _ hc => absurd hc (by decide), request := rfl, eventData := fun _ => rfl, errCount := by decide,
    errHead := by decide, errCodes := fun _ h => absurd h (Nat.not_lt_zero _), txbuf := ⟨rfl, nofun⟩, rxbuf := ⟨rfl, nofun⟩,
    errlog := ⟨rfl, nofun⟩ }

/-- The same, two turns of the wait counted. -/
theorem rxR_waited_inv : { rxR with i2cToCnt := 2 }.Inv :=
  ⟨rxR_inv.cfg, { rxR_inv.timebase with },
    { rxR_inv.transport with toBound := by decide, toPending := fun _ hc => absurd hc (by decide) }, { rxR_inv.scheduler with }⟩

/-- A transmit whose stop condition is driven. -/
theorem stopT_inv : stopT.Inv := by
  refine ⟨by decide, ⟨by decide, nofun, nofun⟩, ?_, ⟨nofun, nofun, by decide, by decide⟩⟩
  exact {
    callbacks := rfl, busyPhase := by decide, busyInited := fun _ => rfl, idxLen := by decide, lenCap := by decide,
    txCap := by decide, rxCap := by decide, phase := rfl, toBound := by decide,
    toPending := fun _ hc => absurd hc (by decide), request := rfl, eventData := fun _ => rfl, errCount := by decide,
    errHead := by decide, errCodes := fun _ h => absurd h (Nat.not_lt_zero _),
    txbuf := ⟨by decide, by decide⟩, rxbuf := ⟨rfl, nofun⟩, errlog := ⟨rfl, nofun⟩ }

/-- The same two with the handler due: the stop condition completed, the timeout posted. -/
theorem stopT_due_inv : (latched .stopped 0 stopT).Inv :=
  ⟨stopT_inv.cfg, ⟨stopT_inv.timebase.count, nofun, nofun⟩,
    { stopT_inv.transport with
      toPending := fun _ hc => absurd hc (by decide), request := rfl, eventData := fun _ => rfl, phase := rfl,
      errCodes := fun _ h => absurd h (Nat.not_lt_zero _) },
    ⟨nofun, nofun, by decide, by decide⟩⟩

theorem rxR_due_inv : (latched .timeout 0 { rxR with i2cToCnt := 3 }).Inv :=
  ⟨rxR_inv.cfg, ⟨rxR_inv.timebase.count, nofun, nofun⟩,
    { rxR_inv.transport with
      toBound := by decide, toPending := fun _ _ => ⟨rfl, rfl⟩, request := nofun, eventData := fun _ => rfl,
      phase := ⟨rfl, by decide, rfl⟩, errCodes := fun _ h => absurd h (Nat.not_lt_zero _) },
    ⟨nofun, nofun, by decide, by decide⟩⟩

theorem witness_InvariantKeptByEveryStep :
    (facing [.bus ⟨0x03, 0x19⟩] { rxR with i2cToCnt := 2 }).Inv ∧
    gives (step (facing [.bus ⟨0x03, 0x19⟩] { rxR with i2cToCnt := 2 })) (fun t => t.ipI2c && t.i2cEvData == 0x19) = true :=
  ⟨facing_inv _ rxR_waited_inv, by decide⟩

/-- A step that runs, and a label with no meaning: both from states of the invariant. -/
theorem witness_InvariantStatesNeverFault :
    (latched .timeout 0 { rxR with i2cToCnt := 3 }).Inv ∧ (facing [.bus ⟨0x06, 0⟩] stopT).Inv ∧
    step (facing [.bus ⟨0x06, 0⟩] stopT) = .refused (.notABusRecord ⟨0x06, 0⟩) :=
  ⟨rxR_due_inv, facing_inv _ stopT_inv, rfl⟩

/-- `Done`, `Fault(TIMEOUT)`, and an operation abandoned by `I2C.RESET`. -/
theorem witness_OneCallbackEndsOperation :
    ((latched .stopped 0 stopT).Inv ∧ (latched .stopped 0 stopT).i2cBusy = true ∧
      gives (step (latched .stopped 0 stopT)) (fun t => !t.i2cBusy && t.trace == [.cb .done]) = true) ∧
    ((latched .timeout 0 { rxR with i2cToCnt := 3 }).Inv ∧
      gives (step (latched .timeout 0 { rxR with i2cToCnt := 3 }))
        (fun t => !t.i2cBusy && t.trace == [.cb (.fault .timeout)] && t.i2cErrlog.read (t.errIndex 0) == 4) = true) ∧
    ((facing [encode .i2cReset] stopT).Inv ∧
      gives (step (facing [encode .i2cReset] stopT)) (fun t => !t.i2cBusy && t.trace == [] && t.agenda == []) = true) :=
  ⟨⟨stopT_due_inv, rfl, by decide⟩, ⟨rxR_due_inv, by decide⟩, ⟨facing_inv _ stopT_inv, by decide⟩⟩

/-- The numbers of 60_exceptions R215. -/
theorem witness_faultNumber : faultNumber .anack 1 ∧ faultNumber .dnack 2 ∧ faultNumber .wcol 3 ∧ faultNumber .timeout 4 :=
  ⟨.inl ⟨rfl, rfl⟩, .inr (.inl ⟨rfl, rfl⟩), .inr (.inr (.inl ⟨rfl, rfl⟩)), .inr (.inr (.inr ⟨rfl, rfl⟩))⟩

/-- A silent bus: three turns and the handler; the fault is `TIMEOUT`, number 4. -/
theorem witness_WaitLoopEndsOperation :
    let s := facing [encode .i2cWait, encode .i2cWait, encode .i2cWait] rxR
    (s.Inv ∧ s.dlyActive = false ∧ s.ctxOpen ∧ s.gateOpen ∧ s.i2cBusy = true ∧
    (∀ l ∈ s.agenda, l.isCmd = true → l = encode .i2cWait) ∧
    s.cfg.i2cTimeoutCycles ≤ s.i2cToCnt.toNat + waitsIn s.agenda) ∧
    core.run 4 s = .next (nextOf (core.run 4 s) s) ∧
    (nextOf (core.run 4 s) s).agenda = [] ∧ (nextOf (core.run 4 s) s).quiet :=
  ⟨⟨facing_inv _ rxR_inv, by decide⟩, eq_nextOf _ (by decide), by decide⟩

/-- The same end with the bus answering in between: the operation completes before the bound. -/
theorem witness_WaitLoopEndsOperation_done :
    let s := facing [encode .i2cWait, .bus ⟨0x04, 0⟩, encode .i2cWait, encode .i2cWait] stopT
    (s.Inv ∧ s.dlyActive = false ∧ s.ctxOpen ∧ s.gateOpen ∧ s.i2cBusy = true ∧
    (∀ l ∈ s.agenda, l.isCmd = true → l = encode .i2cWait) ∧
    s.cfg.i2cTimeoutCycles ≤ s.i2cToCnt.toNat + waitsIn s.agenda) ∧
    core.run 5 s = .next (nextOf (core.run 5 s) s) ∧
    (nextOf (core.run 5 s) s).agenda = [] ∧ (nextOf (core.run 5 s) s).quiet :=
  ⟨⟨facing_inv _ stopT_inv, by decide⟩, eq_nextOf _ (by decide), by decide⟩

theorem witness_WireStaysInGrammar :
    let s := facing [.bus ⟨0x03, 0x19⟩] { rxR with i2cToCnt := 2 }
    s.Inv ∧ s.WireInv ∧ gives (step s) (fun t => t.wire == rxR.wire ++ [.received 0x19]) = true :=
  ⟨facing_inv _ rxR_waited_inv, rfl, by decide⟩

/-- No byte, two bytes, and as many as the buffer holds. -/
theorem witness_TransmitPrefixStartsOperation :
    (0x7F : Byte).toNat < 128 ∧ ([] : List Byte).length ≤ idle.cfg.i2cBufLen ∧
    [(0x0E : Byte), 0x06].length ≤ idle.cfg.i2cBufLen ∧ (List.replicate 32 (0xFF : Byte)).length ≤ idle.cfg.i2cBufLen ∧
    idle.cfg.wf ∧ idle.ctxOpen ∧ idle.i2cInited = true ∧ idle.gateOpen ∧ idle.i2cBusy = false ∧ idle.i2cPhase = .idle ∧
    idle.i2cTxbuf.wf = true := by decide

/-- Reset with every unspecified value non-zero, and a state that a step reaches. -/
def dirt : Unspecified := ⟨9, 8, 7, [(0, 1), (31, 0xFF)], [(31, 1)], [(1, 5)]⟩

theorem witness_InvariantHoldsAtReset : cfg.wf ∧ dirt.fits cfg :=
  ⟨by decide, ⟨by decide, by decide⟩, ⟨by decide, by decide⟩, ⟨by decide, by decide⟩⟩

theorem witness_ReachableStatesMeetR49 :
    cfg.wf ∧ dirt.fits cfg ∧ Reachable cfg dirt { between (State.resetWith cfg dirt) with resps := [⟨.ok, 0⟩] } :=
  ⟨witness_InvariantHoldsAtReset.1, witness_InvariantHoldsAtReset.2, .step (.reset [encode .schRun]) rfl⟩

/-! ### Witnesses: the scheduler, the gate, the whole machine -/

theorem witness_SchRunEntersLoop : off.schRunning = false := by decide
theorem witness_SchRetAdvancesSlot : (inPoll 5 off).schInPoll = true := by decide

/-- A mask with an enabled slot above, and the highest enabled slot, which wraps. -/
theorem witness_NextSlotIsLowestEnabled :
    (0b101001 : BitVec 6) ≠ 0 ∧ ((0 : Slot).toNat < 3 ∧ (0b101001 : BitVec 6).getLsbD 3 = true) ∧
    ∀ u : Nat, (5 : Slot).toNat < u → (0b101001 : BitVec 6).getLsbD u = false :=
  ⟨by decide, by decide, fun _ h => BitVec.getLsbD_of_ge _ _ h⟩

theorem witness_PollOpensPoll :
    ((ready .poll (between off)).quiet ∧ (ready .poll (between off)).agenda = .poll :: [.tick] ∧
      (between off).schRunning = true ∧ (between off).schInPoll = false) ∧
    off.schRunning = false ∧ (inPoll 0 off).schInPoll = true := by decide

theorem witness_SysRdReadsStatusRegisters :
    off.ctxOpen ∧ [0x01, 0x02, 0x03, 0x10, 0x11, 0x12, 0x13, 0x14, 0x15, 0x20, 0x21].all (fun r => sregNumbers.contains r) = true ∧
    { off with cfg := cfg8, tbCount := 255 }.tbCount.toNat < 2 ^ cfg8.tbWidth := by decide

theorem witness_GateReqGrantsOrDenies :
    (let s := inPoll 0 (denied addrT)
     s.ctxOpen ∧ s.gateHeld = true ∧ s.gateOwner = s.requester) ∧
    (off.ctxOpen ∧ off.gateHeld = false ∧ off.i2cBusy = false) ∧
    ((denied idle).ctxOpen ∧ (denied idle).gateHeld = true ∧ (denied idle).gateOwner ≠ (denied idle).requester) ∧
    (addrT.ctxOpen ∧ addrT.gateHeld = false ∧ addrT.i2cBusy = true) := by decide

theorem witness_GateRelReleasesOwn :
    (let s := inPoll 0 (denied idle)
     s.ctxOpen ∧ s.gateHeld = true ∧ s.gateOwner = s.requester ∧ s.i2cBusy = false) ∧
    (off.ctxOpen ∧ off.gateHeld = false) ∧ ((denied idle).ctxOpen ∧ (denied idle).gateOwner ≠ (denied idle).requester) := by decide

/-- T52, T53: a write that is denied, a read that is answered. -/
theorem witness_GateKeepsOthersOut :
    let s := inPoll 1 (denied addrT)
    (Instr.i2cReset).isBus = false ∧ s.gateHeld = true ∧ s.gateOwner ≠ s.requester ∧
    said (exec .i2cReset s) = some ⟨.denied, 0⟩ ∧ said (exec (.sysRd 0x12) s) = some ⟨.ok, 0x00020005⟩ := by decide

/-- Each line of the priority table that a decoded command can meet, and a command that none meets. -/
theorem witness_CommandsRejectByPriority :
    (Instr.i2cSetaddr 0x80).isBus = false ∧ rejection (.i2cSetaddr 0x80) (between off) = some .operand ∧
    rejection (.i2cSetaddr 0x20) (between off) = some .state ∧ rejection (.i2cSetaddr 0x20) off = some .notInit ∧
    rejection (.i2cSetaddr 0x20) (denied addrT) = some .denied ∧ rejection (.i2cSetaddr 0x20) addrT = some .state ∧
    rejection (.i2cSetaddr 0x20) idle = none ∧ gives (exec (.i2cSetaddr 0x20) idle) (fun t => t.resps == [⟨.ok, 0⟩]) = true := by
  decide

/-- A step with a response, a step that leaves one owed, and one without. -/
theorem witness_OneResponsePerCommand :
    gives (step (facing [encode .tbNow] off)) (fun t => t.resps == [⟨.ok, 0⟩]) = true ∧
    gives (step (facing [encode (.dlyMs 1)] off)) (fun t => t.dlyActive && t.resps == []) = true ∧
    gives (step (facing [.tick] off)) (fun t => t.resps == []) = true := by decide

theorem witness_ParametersFixedHistoriesGrow :
    gives (step (latched .wcol 0 txT)) (fun t => t.trace == [.cb (.fault .wcol)] && t.wire == txT.wire ++ [.stop]) = true := by
  decide

theorem witness_EqualReadsEqualMemories :
    Memory.wf [(0, 1), (31, 0xFF)] = true ∧
    ∀ i : Nat, Memory.read [(0, 1), (31, 0xFF)] i = Memory.read (Memory.write [(31, 0xFF)] 0 1) i := ⟨by decide, fun _ => rfl⟩

end Sys2Proof.Machine.Tests
end

section
/-! Proofs of 00_scope: the step of a decoded packet (R8), and the invariants at reset (R7, 10_state R54). -/

namespace Sys2Proof.Machine

/-! ### What a quiet step runs -/

/-- With no hold open the HOST waits for nobody: the first label is next. -/
theorem nextLabel_of_no_hold (l : Label) (ls : List Label) : nextLabel false (l :: ls) = some (l, ls) := rfl

/-- With no request pending the step is what the next label does. -/
theorem step_eq_perform {s : State} {l : Label} {rest : List Label} (hq : s.quiet)
    (hn : nextLabel s.dlyActive s.agenda = some (l, rest)) : step s = perform l { s with agenda := rest } := by
  obtain ⟨hTick, hI2c⟩ := hq
  simp [step, stepOnce, hTick, hI2c, hn]

theorem perform_cmd_of_decode {p : Packet} {i : Instr} (hd : decode (.cmd p) = .ok i) (s : State) :
    perform (.cmd p) s = exec i s := by
  simp only [perform, performPacket, hd]

/-- Settles O1: the packet is the next label, and performing it is `exec` of what it decodes to. -/
theorem stepRunsDecodedPacket : Obligations.StepRunsDecodedPacket := by
  intro s p rest i hq hold hagenda hd
  have hn : nextLabel s.dlyActive s.agenda = some (.cmd p, rest) := by
    rw [hold, hagenda, nextLabel_of_no_hold]
  calc step s = perform (.cmd p) { s with agenda := rest } := step_eq_perform hq hn
    _ = exec i { s with agenda := rest } := perform_cmd_of_decode hd _

/-! ### The parameters and the contents at `State.reset` -/

/-- The open timeout is inside R7's range, whatever its value. -/
theorem default_wf : Config.default.wf := by
  have htimeout : Config.default.i2cTimeoutCycles = Config.timeoutLessOne.val + 1 := rfl
  have hlt := Config.timeoutLessOne.isLt
  exact ⟨by decide, by decide, by decide, by omega, by decide⟩

theorem zero_fits (c : Config) : Unspecified.zero.fits c :=
  ⟨Memory.fits_nil _, Memory.fits_nil _, Memory.fits_nil _⟩

/-! ### The invariants at reset -/

/-- The labels to come are no part of the invariant. -/
theorem State.Inv.with_agenda {s : State} (h : s.Inv) (ls : List Label) : State.Inv { s with agenda := ls } :=
  ⟨h.cfg, { h.timebase with }, { h.transport with }, { h.scheduler with }⟩

/-- The labels to come are no part of the wire's invariant. -/
theorem State.WireInv.with_agenda {s : State} (h : s.WireInv) (ls : List Label) : State.WireInv { s with agenda := ls } := h

section
variable (c : Config) (u : Unspecified)

theorem resetWith_timebaseInv : (State.resetWith c u).TimebaseInv where
  count := Nat.two_pow_pos _
  hold := nofun
  need := nofun

/-- Every counter is 0 and the controller idle; only the ring's head asks for a parameter above 0, and only the three spaces
ask anything of the unspecified contents. -/
theorem resetWith_transportInv (hc : c.wf) (hu : u.fits c) : (State.resetWith c u).TransportInv := by
  obtain ⟨-, -, ⟨hErrlogLen, -⟩, -, -⟩ := hc
  obtain ⟨htx, hrx, herr⟩ := hu
  exact {
    callbacks := rfl
    busyPhase := ⟨nofun, fun hphase => absurd rfl hphase⟩
    busyInited := nofun
    idxLen := Nat.le_refl 0
    lenCap := Nat.zero_le _
    txCap := Nat.zero_le _
    rxCap := Nat.zero_le _
    phase := trivial
    toBound := Nat.zero_le _
    toPending := nofun
    request := rfl
    eventData := fun _ => rfl
    errCount := Nat.zero_le _
    errHead := hErrlogLen
    errCodes := fun _ hage => absurd hage (Nat.not_lt_zero _)
    txbuf := htx
    rxbuf := hrx
    errlog := herr }

theorem resetWith_schedulerInv : (State.resetWith c u).SchedulerInv where
  poll := nofun
  enabled := nofun
  slot := show (0 : Slot).toNat < Config.nDev by decide
  owner := show (0 : Slot) ≠ 6 by decide

theorem resetWith_inv (hc : c.wf) (hu : u.fits c) : (State.resetWith c u).Inv where
  cfg := hc
  timebase := resetWith_timebaseInv c u
  transport := resetWith_transportInv c u hc hu
  scheduler := resetWith_schedulerInv c u

/-- No symbol has been driven, and an idle controller wants the wire between two sentences. -/
theorem resetWith_wireInv : (State.resetWith c u).WireInv := rfl

end

/-- Settles O57: both invariants hold of `State.resetWith`, and `State.reset` is the case of the default parameters. -/
theorem invariantHoldsAtReset : Obligations.InvariantHoldsAtReset :=
  ⟨fun c u ls hc hu => ⟨(resetWith_inv c u hc hu).with_agenda ls, (resetWith_wireInv c u).with_agenda ls⟩,
    resetWith_inv _ _ default_wf (zero_fits _), resetWith_wireInv _ _⟩

end Sys2Proof.Machine
end

section
/-! Proofs of 10_state, the layer: what one command can do to the block, in one list. -/

namespace Sys2Proof.Machine

/-- What a command of the HOST does to the block: one constructor per way a command can end, with the facts its checks leave behind. -/
inductive CommandEffect (s : State) : State → Prop where
  | rejected (e : Status) : CommandEffect s (s.reject e)
  | answered (v : Word) : CommandEffect s (s.respond v)
  | running :
      CommandEffect s
        (State.respond { s with schRunning := true, schSlot := firstSlot s.cfg.schEnableMask, schInPoll := false } 0)
  | pollEnded :
      CommandEffect s (State.respond { s with schInPoll := false, schSlot := nextSlot s.cfg.schEnableMask s.schSlot } 0)
  | gateTaken : CommandEffect s (State.respond { s with gateHeld := true, gateOwner := s.requester } 1)
  | gateReleased : CommandEffect s (State.respond { s with gateHeld := false } 1)
  | tickStarted : CommandEffect s (State.respond { s with tbCount := 0, tbRun := true } 0)
  | tickStopped : CommandEffect s (State.respond { s with tbRun := false } 0)
  | holdBegun (need : Word) (longest : need.toNat ≤ 65535000) : CommandEffect s (beginHold need s)
  | inited (a : Byte) (fresh : s.i2cInited = false) :
      CommandEffect s (State.respond
        { s.clearOperation with
          i2cInited := true, i2cCbEn := 0b11111, i2cAddr := addressOf a, i2cErrHead := 0, i2cErrCount := 0 } 0)
  | addressSet (a : Byte) : CommandEffect s (State.respond { s with i2cAddr := addressOf a } 0)
  | abandoned :
      CommandEffect s
        (State.respond (State.clearI2cRequest (State.clearOperation (if s.owesStop then s.drive [.stop] else s))) 0)
  | collided (busy : s.i2cBusy = true) : CommandEffect s (s.collide.respond 0)
  | pushed (b : Byte) (idle : s.i2cBusy = false) (room : s.i2cTxlen.toNat < s.cfg.i2cBufLen) :
      CommandEffect s (State.respond { s.withByte .txbuf s.i2cTxlen.toNat b with i2cTxlen := s.i2cTxlen + 1 } 1)
  | transmitStarted (ready : s.i2cInited = true) (idle : s.i2cBusy = false) :
      CommandEffect s ((s.startOperation .transmit s.i2cTxlen).respond 1)
  | receiveStarted (n : Byte) (ready : s.i2cInited = true) (idle : s.i2cBusy = false) (nonempty : 1 ≤ n.toNat)
      (fits : n.toNat ≤ s.cfg.i2cBufLen) :
      CommandEffect s (State.respond { s.startOperation .receive n with i2cRxlen := 0 } 1)
  | waited (busy : s.i2cBusy = true) : CommandEffect s (s.countWait.respond 1)

/-- Each check of a command that raised nothing passes. -/
theorem check_passes {cs : List (Option Status)} {c : Option Status} (h : firstRaised cs = none) (hm : c ∈ cs) : c = none :=
  firstRaised_eq_none.1 h c hm

/-- A command's effect is a rejection, or what its own rule does after its checks. -/
theorem CommandEffect.of_guarded {cs : List (Option Status)} {s t : State} {run : Result} (h : guarded cs s run = .next t)
    (hrun : firstRaised cs = none → run = .next t → CommandEffect s t) : CommandEffect s t := by
  obtain ⟨e, -, rfl⟩ | ⟨hc, hr⟩ := guarded_next h
  · exact .rejected e
  · exact hrun hc hr

theorem msNeed_le (n : Half) : (msNeed n).toNat ≤ 65535000 := by
  have hthousand : (1000 : Word).toNat = 1000 := rfl
  rw [msNeed, zext32, BitVec.toNat_mul, BitVec.toNat_setWidth, hthousand]
  exact (Nat.mod_le _ _).trans (by omega)

theorem usNeed_le (n : Half) : (usNeed n).toNat ≤ 65535000 := by
  simp only [usNeed, zext32]
  bv_omega

/-- The same for a command whose rule has one next state. -/
theorem CommandEffect.of_guarded_next {cs : List (Option Status)} {s t u : State} (h : guarded cs s (.next u) = .next t)
    (hu : CommandEffect s u) : CommandEffect s t :=
  .of_guarded h fun _ hr => Host.Outcome.next.inj hr ▸ hu

/-- What each command does, as one of the effects. -/
theorem commandEffect_of_exec {i : Instr} {s t : State} (hi : i.isBus = false) (h : exec i s = .next t) :
    CommandEffect s t := by
  cases i with
  | busAck | busNack | busData | busStopped | busCollision => exact absurd hi (by simp [Instr.isBus])
  | tbNow | tbElapsed | sysRd | i2cResult => exact .of_guarded_next h (.answered _)
  | i2cRxrd x | i2cErrrd x =>
    refine .of_guarded h fun _ hr => ?_
    cases (loadByte_next hr).2
    exact .answered _
  | schRun => exact .of_guarded_next h .running
  | schRet => exact .of_guarded_next h .pollEnded
  | gateReq =>
    refine .of_guarded h fun _ hr => ?_
    split_ifs at hr <;> cases hr
    · exact .answered 1
    · exact .gateTaken
    · exact .answered 0
  | gateRel =>
    refine .of_guarded h fun _ hr => ?_
    split_ifs at hr <;> cases hr
    · exact .gateReleased
    · exact .answered 0
  | tbStart => exact .of_guarded_next h .tickStarted
  | tbStop => exact .of_guarded_next h .tickStopped
  | dlyMs n => exact .of_guarded_next h (.holdBegun _ (msNeed_le n))
  | dlyUs n => exact .of_guarded_next h (.holdBegun _ (usNeed_le n))
  | i2cInit a =>
    refine .of_guarded h fun hc hr => ?_
    cases hr
    have hfresh := check_passes hc (c := checkThat (!s.i2cInited) .state) (by simp)
    exact .inited a (by simpa using hfresh)
  | i2cSetaddr a => exact .of_guarded_next h (.addressSet a)
  | i2cReset => exact .of_guarded_next h .abandoned
  | i2cPush b =>
    refine .of_guarded h fun _ hr => ?_
    split at hr
    · next hbusy =>
      cases hr
      exact .collided hbusy
    · next hidle =>
      cases (storeByte_next hr).2
      exact .pushed b (by simpa using hidle) (storeByte_next hr).1
  | i2cStarttx =>
    refine .of_guarded h fun hc hr => ?_
    have hready := initCheck_eq_none.1 (check_passes hc (c := initCheck s) (by simp))
    split at hr
    · next hbusy =>
      cases hr
      exact .collided hbusy
    · next hidle =>
      cases hr
      exact .transmitStarted hready (by simpa using hidle)
  | i2cStartrx n =>
    refine .of_guarded h fun hc hr => ?_
    have hready := initCheck_eq_none.1 (check_passes hc (c := initCheck s) (by simp))
    have hcount := countCheck_eq_none.1 (check_passes hc (List.mem_cons_self ..))
    obtain ⟨hsome, hfits⟩ : 1 ≤ n.toNat ∧ n.toNat ≤ s.cfg.i2cBufLen := by simpa [countOk] using hcount
    split at hr
    · next hbusy =>
      cases hr
      exact .collided hbusy
    · next hidle =>
      cases hr
      exact .receiveStarted n hready (by simpa using hidle) hsome hfits
  | i2cWait =>
    refine .of_guarded h fun _ hr => ?_
    split at hr
    · next hbusy =>
      cases hr
      exact .waited hbusy
    · cases hr
      exact .answered 0

end Sys2Proof.Machine
end

section
/-! Proofs of 10_state, the layer: the timebase's width, the slots, the ring of the error history. -/

namespace Sys2Proof.Machine

/-! ### The timebase's width (10_state R22) -/

/-- A value cut to TB_WIDTH bits is below `2^TB_WIDTH`. -/
theorem tbTrunc_lt (c : Config) (v : Word) : (tbTrunc c v).toNat < 2 ^ c.tbWidth := by
  rw [tbTrunc, BitVec.toNat_ofNat]
  exact (Nat.mod_le _ _).trans_lt (Nat.mod_lt _ (Nat.two_pow_pos _))

/-! ### The slots (43_scheduler_gate R193) -/

theorem lowestEnabled_some {mask : BitVec 6} {lo t : Nat} (h : lowestEnabled mask lo = some t) :
    t < Config.nDev ∧ mask.getLsbD t = true := by
  have hfound := List.find?_some h
  rw [Bool.and_eq_true] at hfound
  exact ⟨List.mem_range.1 (List.mem_of_find?_eq_some h), hfound.2⟩

/-- A mask that enables anything has a lowest enabled slot. -/
theorem lowestEnabled_zero_ne_none {mask : BitVec 6} (h : mask ≠ 0) : lowestEnabled mask 0 ≠ none := by
  intro hnone
  refine h (BitVec.eq_of_getLsbD_eq fun t ht => ?_)
  have hoff := List.find?_eq_none.1 hnone t (List.mem_range.2 ht)
  simpa using hoff

/-- The slot found is one that exists and is enabled, from wherever the search starts. -/
theorem slotFrom_enabled {mask : BitVec 6} (h : mask ≠ 0) (lo : Nat) :
    (slotFrom mask lo).toNat < Config.nDev ∧ mask.getLsbD (slotFrom mask lo).toNat = true := by
  obtain ⟨t, ht, hslot⟩ : ∃ t, (t < Config.nDev ∧ mask.getLsbD t = true) ∧ slotFrom mask lo = BitVec.ofNat 3 t := by
    unfold slotFrom
    split
    · next t ht => exact ⟨t, lowestEnabled_some ht, rfl⟩
    · obtain ⟨t, ht⟩ := Option.ne_none_iff_exists'.1 (lowestEnabled_zero_ne_none h)
      exact ⟨t, lowestEnabled_some ht, by rw [ht]; rfl⟩
  have hlt : t < 6 := ht.1
  have hval : (slotFrom mask lo).toNat = t := by
    rw [hslot, BitVec.toNat_ofNat]
    omega
  rw [hval]
  exact ht

/-! ### The ring of the error history (42_i2c_bus_fsm R160, 41_i2c_transport R134) -/

/-- A remainder of a value that passes the modulus at most once. -/
theorem mod_of_lt_twice {x n : Nat} (h : x < 2 * n) : x % n = if x < n then x else x - n := by
  split
  · exact Nat.mod_eq_of_lt ‹_›
  · rw [Nat.mod_eq_sub_mod (by omega), Nat.mod_eq_of_lt (by omega)]

section
variable {s : State} (cap : s.cfg.i2cErrlogLen ≤ 255) (head : s.i2cErrHead.toNat < s.cfg.i2cErrlogLen)
include cap head

theorem errAdvance_head_toNat :
    s.errAdvance.i2cErrHead.toNat = if s.i2cErrHead.toNat + 1 < s.cfg.i2cErrlogLen then s.i2cErrHead.toNat + 1 else 0 := by
  rw [State.errAdvance_i2cErrHead, BitVec.toNat_ofNat,
    mod_of_lt_twice (x := s.i2cErrHead.toNat + 1) (n := s.cfg.i2cErrlogLen) (by omega)]
  split <;> omega

/-- The newest entry stands where the head was. -/
theorem errAdvance_errIndex_zero : s.errAdvance.errIndex 0 = s.i2cErrHead.toNat := by
  have hhead := errAdvance_head_toNat cap head
  rw [State.errIndex, State.errAdvance_cfg]
  split at hhead <;> rw [hhead, mod_of_lt_twice (by omega)] <;> split <;> omega

/-- Every older entry ages by one. -/
theorem errAdvance_errIndex_succ {age : Nat} (hage : age + 1 < s.cfg.i2cErrlogLen) :
    s.errAdvance.errIndex (age + 1) = s.errIndex age := by
  have hhead := errAdvance_head_toNat cap head
  rw [State.errIndex, State.errIndex, State.errAdvance_cfg]
  split at hhead <;> rw [hhead, mod_of_lt_twice (by omega), mod_of_lt_twice (by omega)] <;> split <;> split <;> omega

omit cap in
/-- Only the oldest entry of a full ring stands at the head. -/
theorem errIndex_ne_head {age : Nat} (hage : age + 1 < s.cfg.i2cErrlogLen) : s.errIndex age ≠ s.i2cErrHead.toNat := by
  rw [State.errIndex, mod_of_lt_twice (by omega)]
  split <;> omega

omit head in
theorem errAdvance_count_toNat :
    s.errAdvance.i2cErrCount.toNat = min (s.i2cErrCount.toNat + 1) s.cfg.i2cErrlogLen := by
  rw [State.errAdvance_i2cErrCount, BitVec.toNat_ofNat]
  omega

end

/-- A stored fault code is 1 to 4 (60_exceptions R215). -/
theorem FaultKind.code_range (k : FaultKind) : 1 ≤ k.code.toNat ∧ k.code.toNat ≤ 4 := by
  cases k <;> decide

end Sys2Proof.Machine
end

section
/-! Proofs of 10_state: the invariant is kept by every step, and the clauses of R49 follow in every reachable state. -/

namespace Sys2Proof.Machine

/-! ### What the invariant says of a state (10_state R29, R35, R39) -/

section
variable {s : State} (h : s.Inv)
include h

theorem State.Inv.idle (hidle : s.i2cBusy = false) : s.i2cPhase = .idle := by
  by_contra hphase
  exact absurd (h.transport.busyPhase.2 hphase) (by simp [hidle])

theorem State.Inv.phase_of_busy (hbusy : s.i2cBusy = true) : s.i2cPhase ≠ .idle := h.transport.busyPhase.1 hbusy

theorem State.Inv.no_event (hquiet : s.ipI2c = false) : s.i2cEv = .none := by
  simpa [hquiet] using h.transport.request

theorem State.Inv.event_fits (hpend : s.ipI2c = true) : eventFits s.i2cPhase s.i2cEv := by
  simpa [hpend] using h.transport.request

/-- With no request pending the latch is empty, which every phase admits. -/
theorem State.Inv.request_in (hquiet : s.ipI2c = false) (p : Phase) :
    if s.ipI2c then eventFits p s.i2cEv else s.i2cEv = .none := by
  simp [hquiet, h.no_event hquiet]

/-- An event needs an operation, so none is latched while the controller idles. -/
theorem State.Inv.quiet_of_idle (hidle : s.i2cBusy = false) : s.ipI2c = false := by
  by_contra hpend
  have hfits := h.event_fits (by simpa using hpend)
  rw [h.idle hidle] at hfits
  cases hev : s.i2cEv <;> simp [eventFits, hev] at hfits

/-- R49 (d): the bound of the wait is reached only with the timeout pending. -/
theorem State.Inv.toCnt_lt (hquiet : s.ipI2c = false) (hbusy : s.i2cBusy = true) :
    s.i2cToCnt.toNat < s.cfg.i2cTimeoutCycles := by
  refine lt_of_le_of_ne h.transport.toBound fun hbound => ?_
  exact absurd (h.transport.toPending hbusy hbound).1 (by simp [hquiet])

end

/-! ### The invariant under the shared operations -/

/-- The output histories are no part of the invariant. -/
theorem State.Inv.with_outputs {s : State} (h : s.Inv) (tr : List TraceEvent) (w : List WireSym) (rs : List Response) :
    State.Inv { s with trace := tr, wire := w, resps := rs } :=
  ⟨h.cfg, { h.timebase with }, { h.transport with }, { h.scheduler with }⟩

theorem State.Inv.respond {s : State} (h : s.Inv) (v : Word) : (s.respond v).Inv := h.with_outputs _ _ _

theorem State.Inv.reject {s : State} (h : s.Inv) (e : Status) : (s.reject e).Inv := h.with_outputs _ _ _

theorem State.Inv.drive {s : State} (h : s.Inv) (w : List WireSym) : (s.drive w).Inv := h.with_outputs _ _ _

/-- An event that the phase admits may be latched where none is, before the wait's bound is reached. -/
theorem State.Inv.postI2c {s : State} (h : s.Inv) (hquiet : s.ipI2c = false) {e : Event} {d : Byte}
    (hfits : eventFits s.i2cPhase e) (hdata : e ≠ .data → d = 0) : (s.postI2c e d).Inv where
  cfg := h.cfg
  timebase := { h.timebase with }
  transport := { h.transport with
    toPending := fun hbusy hbound => absurd hbound (Nat.ne_of_lt (h.toCnt_lt hquiet hbusy))
    request := hfits
    eventData := hdata }
  scheduler := { h.scheduler with }

/-- A hold that goes on is below its need, and one that is over is closed. -/
theorem endHold_inv {s : State} (hcfg : s.cfg.wf) (hcount : s.tbCount.toNat < 2 ^ s.cfg.tbWidth)
    (hneed : s.dlyActive = true → s.dlyNeed.toNat ≤ 65535000) (htransport : s.TransportInv) (hscheduler : s.SchedulerInv) :
    (endHold s).Inv := by
  obtain ⟨-, -, he⟩ | ⟨hgoes, he⟩ := endHold_cases s
  · rw [he]
    exact ⟨hcfg, ⟨hcount, nofun, nofun⟩, { htransport with }, { hscheduler with }⟩
  · rw [he]
    exact ⟨hcfg, ⟨hcount, hgoes, hneed⟩, htransport, hscheduler⟩

/-- Between operations nothing is left of the last one: what `I2C.INIT` and `I2C.RESET` share. -/
theorem State.Inv.clearOperation {s : State} (h : s.Inv) (hquiet : s.ipI2c = false) : s.clearOperation.Inv where
  cfg := h.cfg
  timebase := { h.timebase with }
  transport := { h.transport with
    busyPhase := ⟨nofun, fun hphase => absurd rfl hphase⟩
    busyInited := nofun
    idxLen := Nat.le_refl 0
    lenCap := Nat.zero_le _
    txCap := Nat.zero_le _
    rxCap := Nat.zero_le _
    phase := trivial
    toBound := Nat.zero_le _
    toPending := nofun
    request := h.request_in hquiet _ }
  scheduler := { h.scheduler with }

/-- The latch is cleared of any event but a timeout, which only a fault may follow. -/
theorem State.Inv.clearI2cRequest {s : State} (h : s.Inv) (hev : s.i2cBusy = true → s.i2cEv ≠ .timeout) :
    s.clearI2cRequest.Inv where
  cfg := h.cfg
  timebase := { h.timebase with }
  transport := { h.transport with
    toPending := fun hbusy hbound => absurd (h.transport.toPending hbusy hbound).2 (hev hbusy)
    request := rfl
    eventData := fun _ => rfl }
  scheduler := { h.scheduler with }

/-- An operation starts on an idle, initialised controller; what its direction asks of the counters holds. -/
theorem State.Inv.startOperation {s : State} (h : s.Inv) (hready : s.i2cInited = true) (hidle : s.i2cBusy = false)
    {d : Dir} {n rxlen : Byte} (hlen : n.toNat ≤ s.cfg.i2cBufLen) (hrx : rxlen.toNat ≤ s.cfg.i2cBufLen)
    (htransmit : d = .transmit → n = s.i2cTxlen) (hreceive : d = .receive → 1 ≤ n.toNat ∧ rxlen = 0) :
    State.Inv { s.startOperation d n with i2cRxlen := rxlen } := by
  have hquiet := h.quiet_of_idle hidle
  obtain ⟨-, -, -, ⟨hcycles, -⟩, -⟩ := h.cfg
  exact {
    cfg := h.cfg
    timebase := { h.timebase with }
    transport := { h.transport with
      busyPhase := ⟨nofun, fun _ => rfl⟩
      busyInited := fun _ => hready
      idxLen := Nat.zero_le _
      lenCap := hlen
      rxCap := hrx
      phase := ⟨rfl, htransmit, hreceive⟩
      toBound := Nat.zero_le _
      toPending := fun _ hbound => absurd hbound (Nat.ne_of_lt hcycles)
      request := h.request_in hquiet _ }
    scheduler := { h.scheduler with } }

/-- A byte is put behind the others of an idle controller's transmit buffer. -/
theorem State.Inv.push {s : State} (h : s.Inv) (hidle : s.i2cBusy = false) (hroom : s.i2cTxlen.toNat < s.cfg.i2cBufLen)
    (b : Byte) : State.Inv { s.withByte .txbuf s.i2cTxlen.toNat b with i2cTxlen := s.i2cTxlen + 1 } := by
  obtain ⟨-, ⟨-, hcap⟩, -⟩ := h.cfg
  have hlen : (s.i2cTxlen + 1).toNat ≤ s.cfg.i2cBufLen := by bv_omega
  have hphase : State.phaseInv { s.withByte .txbuf s.i2cTxlen.toNat b with i2cTxlen := s.i2cTxlen + 1 } := by
    simp [State.phaseInv, State.withByte, h.idle hidle]
  exact {
    cfg := h.cfg
    timebase := { h.timebase with }
    transport := { h.transport with
      txCap := hlen
      phase := hphase
      txbuf := Memory.fits_write h.transport.txbuf hroom b }
    scheduler := { h.scheduler with } }

/-- One turn of the wait loop: below the bound the count moves on, at the bound the timeout is pending. -/
theorem State.Inv.countWait {s : State} (h : s.Inv) (hquiet : s.ipI2c = false) (hbusy : s.i2cBusy = true) :
    s.countWait.Inv := by
  obtain ⟨-, -, -, ⟨-, hmax⟩, -⟩ := h.cfg
  have hlt := h.toCnt_lt hquiet hbusy
  have hcnt : (s.i2cToCnt + 1).toNat = s.i2cToCnt.toNat + 1 := by bv_omega
  have hbound : (s.i2cToCnt + 1).toNat ≤ s.cfg.i2cTimeoutCycles := by omega
  unfold State.countWait
  simp only
  split
  · exact {
      cfg := h.cfg
      timebase := { h.timebase with }
      transport := { h.transport with
        toBound := hbound
        toPending := fun _ _ => ⟨rfl, rfl⟩
        request := h.phase_of_busy hbusy
        eventData := fun _ => rfl }
      scheduler := { h.scheduler with } }
  · next hbelow =>
    exact {
      cfg := h.cfg
      timebase := { h.timebase with }
      transport := { h.transport with
        toBound := hbound
        toPending := fun _ heq => absurd heq hbelow }
      scheduler := { h.scheduler with } }

/-! ### The invariant under the commands -/

theorem State.requester_ne_six {s : State} (h : s.schSlot.toNat < Config.nDev) : s.requester ≠ 6 := by
  have hslot : s.schSlot ≠ 6 := by
    intro heq
    rw [heq] at h
    exact absurd h (by decide)
  unfold State.requester
  split
  · exact hslot
  · decide

/-- No command breaks the invariant where no bus event is pending. -/
theorem CommandEffect.keeps_inv {s t : State} (h : s.Inv) (hquiet : s.ipI2c = false) (he : CommandEffect s t) : t.Inv := by
  obtain ⟨-, -, hring, -, hmask⟩ := h.cfg
  cases he with
  | rejected e => exact h.reject e
  | answered v => exact h.respond v
  | running =>
    obtain ⟨hslot, hbit⟩ := slotFrom_enabled hmask 0
    exact ⟨h.cfg, { h.timebase with }, { h.transport with }, { h.scheduler with
      poll := nofun, enabled := fun _ => hbit, slot := hslot }⟩
  | pollEnded =>
    obtain ⟨hslot, hbit⟩ := slotFrom_enabled hmask (s.schSlot.toNat + 1)
    exact ⟨h.cfg, { h.timebase with }, { h.transport with }, { h.scheduler with
      poll := nofun, enabled := fun _ => hbit, slot := hslot }⟩
  | gateTaken =>
    exact ⟨h.cfg, { h.timebase with }, { h.transport with }, { h.scheduler with
      owner := State.requester_ne_six h.scheduler.slot }⟩
  | gateReleased => exact ⟨h.cfg, { h.timebase with }, { h.transport with }, { h.scheduler with }⟩
  | tickStarted =>
    exact ⟨h.cfg, { h.timebase with count := Nat.two_pow_pos _ }, { h.transport with }, { h.scheduler with }⟩
  | tickStopped => exact ⟨h.cfg, { h.timebase with }, { h.transport with }, { h.scheduler with }⟩
  | holdBegun need longest =>
    exact endHold_inv h.cfg h.timebase.count (fun _ => longest) { h.transport with } { h.scheduler with }
  | inited a fresh =>
    have hclear := h.clearOperation hquiet
    exact ⟨h.cfg, { h.timebase with }, { hclear.transport with
      callbacks := rfl, busyInited := nofun, errCount := Nat.zero_le _, errHead := hring.1
      errCodes := fun _ hage => absurd hage (Nat.not_lt_zero _) }, { h.scheduler with }⟩
  | addressSet a => exact ⟨h.cfg, { h.timebase with }, { h.transport with }, { h.scheduler with }⟩
  | abandoned =>
    have hstopped : (if s.owesStop then s.drive [.stop] else s).Inv := by
      split
      · exact h.drive _
      · exact h
    have hclear := hstopped.clearOperation (by split <;> simpa using hquiet)
    exact (hclear.clearI2cRequest nofun).respond 0
  | collided busy => exact (h.postI2c (e := .wcol) hquiet (h.phase_of_busy busy) fun _ => rfl).respond 0
  | pushed b idle room => exact (h.push idle room b).respond 1
  | transmitStarted ready idle =>
    exact (h.startOperation (d := .transmit) ready idle h.transport.txCap h.transport.rxCap (fun _ => rfl) nofun).respond 1
  | receiveStarted n ready idle nonempty fits =>
    exact (h.startOperation (d := .receive) ready idle fits (Nat.zero_le _) nofun fun _ => ⟨nonempty, rfl⟩).respond 1
  | waited busy => exact (h.countWait hquiet busy).respond 1

/-! ### The invariant under the handlers -/

theorem tickIsr_inv {s : State} (h : s.Inv) : (tickIsr s).Inv :=
  ⟨h.cfg, { h.timebase with count := tbTrunc_lt s.cfg _ }, { h.transport with }, { h.scheduler with }⟩

/-- The handler moves an operation on: another phase, index or received byte, as the new phase asks. -/
theorem State.Inv.advance {s : State} (h : s.Inv) (hquiet : s.ipI2c = false) (hbusy : s.i2cBusy = true) {p : Phase}
    {idx rxlen : Byte} {rxbuf : Memory} {w : List WireSym} (hp : p ≠ .idle) (hidx : idx.toNat ≤ s.i2cLen.toNat)
    (hrx : rxlen.toNat ≤ s.cfg.i2cBufLen) (hbuf : Memory.fits s.cfg.i2cBufLen rxbuf)
    (hphase : State.phaseInv { s with i2cPhase := p, i2cIdx := idx, i2cRxlen := rxlen, i2cRxbuf := rxbuf, wire := w }) :
    State.Inv { s with i2cPhase := p, i2cIdx := idx, i2cRxlen := rxlen, i2cRxbuf := rxbuf, wire := w } where
  cfg := h.cfg
  timebase := { h.timebase with }
  transport := { h.transport with
    busyPhase := ⟨fun _ => hp, fun _ => hbusy⟩
    idxLen := hidx
    rxCap := hrx
    rxbuf := hbuf
    phase := hphase
    request := h.request_in hquiet _ }
  scheduler := { h.scheduler with }

/-- The same where only the phase and the wire move. -/
theorem State.Inv.enterPhase {s : State} (h : s.Inv) (hquiet : s.ipI2c = false) (hbusy : s.i2cBusy = true) {p : Phase}
    {w : List WireSym} (hp : p ≠ .idle) (hphase : State.phaseInv { s with i2cPhase := p, wire := w }) :
    State.Inv { s with i2cPhase := p, wire := w } :=
  h.advance hquiet hbusy hp h.transport.idxLen h.transport.rxCap h.transport.rxbuf hphase

section
variable {s t : State} (h : s.Inv)
include h

theorem State.Inv.phaseInv_addr (hp : s.i2cPhase = .addr) :
    s.i2cIdx = 0 ∧ (s.i2cDir = .transmit → s.i2cLen = s.i2cTxlen) ∧
    (s.i2cDir = .receive → 1 ≤ s.i2cLen.toNat ∧ s.i2cRxlen = 0) := by
  simpa only [State.phaseInv, hp] using h.transport.phase

theorem State.Inv.phaseInv_tx (hp : s.i2cPhase = .tx) :
    s.i2cDir = .transmit ∧ s.i2cIdx.toNat < s.i2cLen.toNat ∧ s.i2cLen = s.i2cTxlen := by
  simpa only [State.phaseInv, hp] using h.transport.phase

theorem State.Inv.phaseInv_rx (hp : s.i2cPhase = .rx) :
    s.i2cDir = .receive ∧ s.i2cIdx.toNat < s.i2cLen.toNat ∧ s.i2cRxlen = s.i2cIdx := by
  simpa only [State.phaseInv, hp] using h.transport.phase

variable (hquiet : s.ipI2c = false)
include hquiet

theorem addressAcked_inv (hp : s.i2cPhase = .addr) (ht : addressAcked s = .next t) : t.Inv := by
  have hbusy : s.i2cBusy = true := h.transport.busyPhase.2 (by simp [hp])
  obtain ⟨hidx, htransmit, hreceive⟩ := h.phaseInv_addr hp
  obtain ⟨hd, rfl⟩ | ⟨hd, hlen, rfl⟩ | ⟨hd, hlen, rfl⟩ := addressAcked_next ht
  · obtain ⟨hsome, hrx⟩ := hreceive hd
    exact h.enterPhase hquiet hbusy nofun ⟨hd, by bv_omega, hrx.trans hidx.symm⟩
  · exact h.enterPhase hquiet hbusy nofun (show s.i2cIdx = s.i2cLen by rw [hidx, hlen])
  · exact h.enterPhase hquiet hbusy nofun ⟨hd, by bv_omega, htransmit hd⟩

theorem byteAcked_inv (hp : s.i2cPhase = .tx) (ht : byteAcked s = .next t) : t.Inv := by
  have hbusy : s.i2cBusy = true := h.transport.busyPhase.2 (by simp [hp])
  obtain ⟨hd, hlt, htx⟩ := h.phaseInv_tx hp
  have hidx : (s.i2cIdx + 1).toNat ≤ s.i2cLen.toNat := by bv_omega
  obtain ⟨hlast, rfl⟩ | ⟨hmore, -, rfl⟩ := byteAcked_next ht
  · exact h.advance hquiet hbusy nofun hidx h.transport.rxCap h.transport.rxbuf hlast
  · have hnext : (s.i2cIdx + 1).toNat < s.i2cLen.toNat := by bv_omega
    refine h.advance hquiet hbusy (by simp [hp]) hidx h.transport.rxCap h.transport.rxbuf ?_
    simpa only [State.phaseInv, hp] using ⟨hd, hnext, htx⟩

theorem byteReceived_inv {d : Byte} (hp : s.i2cPhase = .rx) (ht : byteReceived d s = .next t) : t.Inv := by
  have hbusy : s.i2cBusy = true := h.transport.busyPhase.2 (by simp [hp])
  obtain ⟨hd, hlt, -⟩ := h.phaseInv_rx hp
  have hidx : (s.i2cIdx + 1).toNat ≤ s.i2cLen.toNat := by bv_omega
  have hrx := hidx.trans h.transport.lenCap
  obtain ⟨hroom, ⟨hlast, rfl⟩ | ⟨hmore, rfl⟩⟩ := byteReceived_next ht
  · exact h.advance hquiet hbusy nofun hidx hrx (Memory.fits_write h.transport.rxbuf hroom d) hlast
  · have hnext : (s.i2cIdx + 1).toNat < s.i2cLen.toNat := by bv_omega
    refine h.advance hquiet hbusy (by simp [hp]) hidx hrx (Memory.fits_write h.transport.rxbuf hroom d) ?_
    simpa only [State.phaseInv, hp] using ⟨hd, hnext, trivial⟩

end

theorem doneCallback_inv {s : State} (h : s.Inv) (hquiet : s.ipI2c = false) : (doneCallback s).Inv where
  cfg := h.cfg
  timebase := { h.timebase with }
  transport := { h.transport with
    busyPhase := ⟨nofun, fun hphase => absurd rfl hphase⟩
    busyInited := nofun
    phase := trivial
    toPending := nofun
    request := h.request_in hquiet _ }
  scheduler := { h.scheduler with }

/-- After a fault the newest entry is its code, and every older one is the entry that was one younger. -/
theorem errCodes_of_fault {s : State} (h : s.Inv) (k : FaultKind) (age : Nat) (hage : age < s.errAdvance.i2cErrCount.toNat) :
    1 ≤ ((s.i2cErrlog.write s.i2cErrHead.toNat k.code).read (s.errAdvance.errIndex age)).toNat ∧
    ((s.i2cErrlog.write s.i2cErrHead.toNat k.code).read (s.errAdvance.errIndex age)).toNat ≤ 4 := by
  obtain ⟨-, -, ⟨-, hcap⟩, -⟩ := h.cfg
  have hhead := h.transport.errHead
  rw [errAdvance_count_toNat hcap] at hage
  cases age with
  | zero =>
    rw [errAdvance_errIndex_zero hcap hhead, Memory.read_write h.transport.errlog.1, if_pos rfl]
    exact k.code_range
  | succ age =>
    have hlt : age + 1 < s.cfg.i2cErrlogLen := by omega
    rw [errAdvance_errIndex_succ hcap hhead hlt, Memory.read_write h.transport.errlog.1,
      if_neg (errIndex_ne_head hhead hlt)]
    exact h.transport.errCodes age (by omega)

/-- `Fault(k)` ends the operation whatever event was latched, a timeout too. -/
theorem faultCallback_inv {s t : State} (h : s.Inv) {k : FaultKind} (ht : faultCallback k s.clearI2cRequest = .next t) :
    t.Inv := by
  obtain ⟨-, -, ⟨-, hcap⟩, -⟩ := h.cfg
  obtain ⟨hroom, rfl⟩ := faultCallback_next ht
  have hhead := h.transport.errHead
  have hcount : s.errAdvance.i2cErrCount.toNat ≤ s.cfg.i2cErrlogLen := by
    rw [errAdvance_count_toNat hcap]
    omega
  have hhead' : s.errAdvance.i2cErrHead.toNat < s.cfg.i2cErrlogLen := by
    rw [errAdvance_head_toNat hcap hhead]
    split <;> omega
  exact {
    cfg := h.cfg
    timebase := { h.timebase with }
    transport := { h.transport with
      busyPhase := ⟨nofun, fun hphase => absurd rfl hphase⟩
      busyInited := nofun
      phase := trivial
      toPending := nofun
      request := rfl
      eventData := fun _ => rfl
      errCount := hcount
      errHead := hhead'
      errCodes := errCodes_of_fault h k
      errlog := Memory.fits_write h.transport.errlog hroom k.code }
    scheduler := { h.scheduler with } }

/-- The handler of an event that the phase admits runs the arm it selects. A latched timeout ends in the fault, so the wait's bound
never outlives its request. -/
theorem i2cIsr_inv {s t : State} (h : s.Inv) (hpend : s.ipI2c = true)
    (ht : i2cArm s.i2cEv s.i2cEvData s.clearI2cRequest = .next t) : t.Inv := by
  have hfits := h.event_fits hpend
  by_cases hev : s.i2cEv = .timeout
  · have hphase : s.i2cPhase ≠ .idle := by simpa [hev, eventFits] using hfits
    have harm : i2cArm .timeout s.i2cEvData s.clearI2cRequest = faultCallback .timeout s.clearI2cRequest := by
      cases hp : s.i2cPhase <;> simp_all [i2cArm]
    rw [hev, harm] at ht
    exact faultCallback_inv h ht
  · have hclear := h.clearI2cRequest fun _ => hev
    have hquiet : s.clearI2cRequest.ipI2c = false := rfl
    obtain ⟨-, -, harm⟩ | ⟨-, -, harm⟩ | ⟨hp, -, harm⟩ | ⟨hp, -, harm⟩ | ⟨-, -, harm⟩ | ⟨-, -, harm⟩ | ⟨hp, -, harm⟩ |
      ⟨-, -, harm⟩ | harm := i2cArm_cases s.i2cEv s.i2cEvData s.clearI2cRequest
    all_goals rw [harm] at ht
    · exact faultCallback_inv h ht
    · exact faultCallback_inv h ht
    · exact addressAcked_inv hclear hquiet hp ht
    · exact byteAcked_inv hclear hquiet hp ht
    · exact faultCallback_inv h ht
    · exact faultCallback_inv h ht
    · exact byteReceived_inv hclear hquiet hp ht
    · exact Host.Outcome.next.inj ht ▸ doneCallback_inv hclear hquiet
    · exact Host.Outcome.next.inj ht ▸ hclear

/-! ### The invariant under the environment -/

theorem tickStep_inv {s : State} (h : s.Inv) : (tickStep s).Inv := by
  unfold tickStep
  split
  · exact ⟨h.cfg, { h.timebase with }, { h.transport with }, { h.scheduler with }⟩
  · exact h

theorem usTickStep_inv {s : State} (h : s.Inv) : (usTickStep s).Inv :=
  endHold_inv h.cfg h.timebase.count h.timebase.need { h.transport with } { h.scheduler with }

theorem pollStep_inv {s : State} (h : s.Inv) : (pollStep s).Inv := by
  unfold pollStep
  split
  · next hopen =>
    rw [Bool.and_eq_true] at hopen
    exact ⟨h.cfg, { h.timebase with }, { h.transport with }, { h.scheduler with poll := fun _ => hopen.1 }⟩
  · exact h

/-- A response of the bus latches an event that the phase admits, or nothing. -/
theorem busInstr_inv {i : Instr} {s t : State} (h : s.Inv) (hi : i.isBus = true) (ht : exec i s = .next t) : t.Inv := by
  obtain rfl | ⟨-, hquiet, e, d, w, rfl, hcase⟩ := busInstr_next hi ht
  · exact h
  · refine (h.postI2c hquiet ?_ ?_).drive w
    · obtain ⟨-, hp, rfl, -⟩ | ⟨-, hp, rfl, -⟩ | ⟨-, hp, rfl, -⟩ | ⟨-, hp, rfl, -⟩ | ⟨-, hp, rfl, -⟩ := hcase <;> exact hp
    · obtain ⟨-, -, -, rfl, -⟩ | ⟨-, -, -, rfl, -⟩ | ⟨-, -, rfl, -⟩ | ⟨-, -, -, rfl, -⟩ | ⟨-, -, -, rfl, -⟩ := hcase <;>
        simp

/-- What one label does keeps the invariant where no bus event is pending. -/
theorem perform_inv {l : Label} {s t : State} (h : s.Inv) (hquiet : s.ipI2c = false) (ht : perform l s = .next t) : t.Inv := by
  obtain ⟨p, i, rfl, hd, hx⟩ | ⟨p, e, -, -, rfl⟩ | ⟨-, rfl⟩ | ⟨-, rfl⟩ | ⟨-, rfl⟩ | ⟨r, i, rfl, hd, hx⟩ |
    ⟨r, i, u, rfl, hd, hx, rfl⟩ := perform_next ht
  · exact (commandEffect_of_exec (isBus_of_packet hd) hx).keeps_inv h hquiet
  · exact h.reject _
  · exact pollStep_inv h
  · exact tickStep_inv h
  · exact usTickStep_inv h
  · exact busInstr_inv h (isBus_of_decode hd rfl) hx
  · exact tickStep_inv (busInstr_inv h (isBus_of_decode hd rfl) hx)

/-- Settles O58: the handlers, the commands, the bus and the other agents each keep the invariant. -/
theorem invariantKeptByEveryStep : Obligations.InvariantKeptByEveryStep := by
  intro s t h ht
  obtain ⟨-, he⟩ | ⟨-, hpend, he⟩ | ⟨-, hquiet, l, rest, -, he⟩ | ⟨-, -, -, he⟩ := step_cases s
  all_goals rw [he] at ht
  · exact Host.Outcome.next.inj ht ▸ tickIsr_inv h
  · exact i2cIsr_inv h hpend ht
  · exact perform_inv (h.with_agenda rest) hquiet ht
  · exact Host.Outcome.next.inj ht ▸ h

/-! ### The clauses of R49 -/

/-- The invariant has R49's clauses in it; clause (d) is the one that asks for no request pending. -/
theorem State.Inv.r49 {s : State} (h : s.Inv) : s.R49 where
  a := h.transport.busyPhase
  b := h.transport.busyInited
  c := ⟨h.transport.idxLen, h.transport.lenCap⟩
  d := fun hquiet hbusy => h.toCnt_lt hquiet.2 hbusy
  e := ⟨h.transport.errCount, h.transport.errHead⟩
  f := h.scheduler.poll
  g := h.scheduler.enabled
  h := fun _ => by
    have howner := h.scheduler.owner
    bv_omega

theorem reachable_inv {c : Config} {u : Unspecified} {s : State} (hc : c.wf) (hu : u.fits c) (hs : Reachable c u s) : s.Inv := by
  induction hs with
  | reset labels => exact (resetWith_inv c u hc hu).with_agenda labels
  | step _ ht ih => exact invariantKeptByEveryStep _ _ ih ht

/-- Settles O60: every reachable state has the invariant, and the invariant has the clauses. -/
theorem reachableStatesMeetR49 : Obligations.ReachableStatesMeetR49 :=
  fun _ _ _ hc hu hs => (reachable_inv hc hu hs).r49

end Sys2Proof.Machine
end

section
/-! Proofs of 10_state: the parameters are fixed and the histories grow (R51 to R53), and what reset leaves (R54). -/

namespace Sys2Proof.Machine

/-! ### What grows (10_state R51, R52, R53) -/

/-- The parameters are the same, and each history of `s` is a beginning of that of `t`. -/
structure State.GrowsTo (s t : State) : Prop where
  cfg : t.cfg = s.cfg
  trace : s.trace <+: t.trace
  wire : s.wire <+: t.wire
  resps : s.resps <+: t.resps

theorem State.GrowsTo.refl (s : State) : s.GrowsTo s := ⟨rfl, List.prefix_rfl, List.prefix_rfl, List.prefix_rfl⟩

theorem State.GrowsTo.trans {s t u : State} (h : s.GrowsTo t) (h' : t.GrowsTo u) : s.GrowsTo u :=
  ⟨h'.cfg.trans h.cfg, h.trace.trans h'.trace, h.wire.trans h'.wire, h.resps.trans h'.resps⟩

theorem State.growsTo_respond (s : State) (v : Word) : s.GrowsTo (s.respond v) :=
  ⟨rfl, List.prefix_rfl, List.prefix_rfl, List.prefix_append _ _⟩

theorem State.growsTo_reject (s : State) (e : Status) : s.GrowsTo (s.reject e) :=
  ⟨rfl, List.prefix_rfl, List.prefix_rfl, List.prefix_append _ _⟩

theorem State.growsTo_drive (s : State) (w : List WireSym) : s.GrowsTo (s.drive w) :=
  ⟨rfl, List.prefix_rfl, List.prefix_append _ _, List.prefix_rfl⟩

theorem State.growsTo_emit (s : State) (e : TraceEvent) : s.GrowsTo (s.emit e) :=
  ⟨rfl, List.prefix_append _ _, List.prefix_rfl, List.prefix_rfl⟩

/-- A state that answers from one with the same histories. -/
theorem State.GrowsTo.respond {s t : State} (h : s.GrowsTo t) (v : Word) : s.GrowsTo (t.respond v) :=
  h.trans (t.growsTo_respond v)

theorem endHold_growsTo (s : State) : s.GrowsTo (endHold s) := by
  obtain ⟨-, -, he⟩ | ⟨-, he⟩ := endHold_cases s <;> rw [he]
  · exact { s.growsTo_respond 0 with }
  · exact .refl s

theorem tickStep_growsTo (s : State) : s.GrowsTo (tickStep s) := by
  unfold tickStep
  split
  · exact { State.GrowsTo.refl s with }
  · exact .refl s

theorem pollStep_growsTo (s : State) : s.GrowsTo (pollStep s) := by
  unfold pollStep
  split
  · exact { s.growsTo_emit (.poll s.schSlot) with }
  · exact .refl s

theorem countWait_growsTo (s : State) : s.GrowsTo s.countWait := by
  unfold State.countWait
  simp only
  split <;> exact { State.GrowsTo.refl s with }

/-- Every command's effect answers at most, drives at most, and leaves the rest of the histories. -/
theorem CommandEffect.growsTo {s t : State} (he : CommandEffect s t) : s.GrowsTo t := by
  have hsame := State.GrowsTo.refl s
  cases he with
  | rejected e => exact s.growsTo_reject e
  | answered v => exact s.growsTo_respond v
  | holdBegun need => exact { endHold_growsTo { s with dlyT0 := s.frCount, dlyNeed := need, dlyActive := true } with }
  | abandoned =>
    have hstopped : s.GrowsTo (if s.owesStop then s.drive [.stop] else s) := by
      split
      · exact s.growsTo_drive _
      · exact hsame
    exact { hstopped.respond 0 with }
  | transmitStarted | receiveStarted => exact { (s.growsTo_drive [.start, .ad s.i2cAddr _]).respond 1 with }
  | waited => exact (countWait_growsTo s).respond 1
  | running | pollEnded | tickStarted | tickStopped | inited | addressSet | collided => exact { hsame.respond 0 with }
  | gateTaken | gateReleased | pushed => exact { hsame.respond 1 with }

/-- A fault drives the stop condition where one is owed and emits its callback. -/
theorem faultCallback_growsTo {k : FaultKind} {s t : State} (h : faultCallback k s = .next t) : s.GrowsTo t := by
  obtain ⟨-, rfl⟩ := faultCallback_next h
  exact ⟨rfl, List.prefix_append _ _, List.prefix_append _ _, List.prefix_rfl⟩

theorem addressAcked_growsTo {s t : State} (h : addressAcked s = .next t) : s.GrowsTo t := by
  obtain ⟨-, rfl⟩ | ⟨-, -, rfl⟩ | ⟨-, -, rfl⟩ := addressAcked_next h
  · exact { State.GrowsTo.refl s with }
  · exact { s.growsTo_drive _ with }
  · exact { s.growsTo_drive _ with }

theorem byteAcked_growsTo {s t : State} (h : byteAcked s = .next t) : s.GrowsTo t := by
  obtain ⟨-, rfl⟩ | ⟨-, -, rfl⟩ := byteAcked_next h <;> exact { s.growsTo_drive _ with }

theorem byteReceived_growsTo {d : Byte} {s t : State} (h : byteReceived d s = .next t) : s.GrowsTo t := by
  obtain ⟨-, ⟨-, rfl⟩ | ⟨-, rfl⟩⟩ := byteReceived_next h <;> exact { s.growsTo_drive _ with }

theorem i2cArm_growsTo {e : Event} {d : Byte} {s t : State} (h : i2cArm e d s = .next t) : s.GrowsTo t := by
  obtain ⟨-, -, harm⟩ | ⟨-, -, harm⟩ | ⟨-, -, harm⟩ | ⟨-, -, harm⟩ | ⟨-, -, harm⟩ | ⟨-, -, harm⟩ | ⟨-, -, harm⟩ |
    ⟨-, -, harm⟩ | harm := i2cArm_cases e d s
  all_goals rw [harm] at h
  · exact faultCallback_growsTo h
  · exact faultCallback_growsTo h
  · exact addressAcked_growsTo h
  · exact byteAcked_growsTo h
  · exact faultCallback_growsTo h
  · exact faultCallback_growsTo h
  · exact byteReceived_growsTo h
  · cases h
    exact { s.growsTo_emit (.cb .done) with }
  · cases h
    exact .refl s

theorem busInstr_growsTo {i : Instr} {s t : State} (hi : i.isBus = true) (h : exec i s = .next t) : s.GrowsTo t := by
  obtain rfl | ⟨-, -, e, d, w, rfl, -⟩ := busInstr_next hi h
  · exact .refl t
  · exact { s.growsTo_drive w with }

theorem perform_growsTo {l : Label} {s t : State} (h : perform l s = .next t) : s.GrowsTo t := by
  obtain ⟨p, i, rfl, hd, hx⟩ | ⟨p, e, -, -, rfl⟩ | ⟨-, rfl⟩ | ⟨-, rfl⟩ | ⟨-, rfl⟩ | ⟨r, i, rfl, hd, hx⟩ |
    ⟨r, i, u, rfl, hd, hx, rfl⟩ := perform_next h
  · exact (commandEffect_of_exec (isBus_of_packet hd) hx).growsTo
  · exact s.growsTo_reject _
  · exact pollStep_growsTo s
  · exact tickStep_growsTo s
  · exact { endHold_growsTo { s with frCount := s.frCount + 1 } with }
  · exact busInstr_growsTo (isBus_of_decode hd rfl) hx
  · exact (busInstr_growsTo (isBus_of_decode hd rfl) hx).trans (tickStep_growsTo u)

theorem step_growsTo {s t : State} (h : step s = .next t) : s.GrowsTo t := by
  obtain ⟨-, he⟩ | ⟨-, -, he⟩ | ⟨-, -, l, rest, -, he⟩ | ⟨-, -, -, he⟩ := step_cases s
  all_goals rw [he] at h
  · cases h
    exact { State.GrowsTo.refl s with }
  · exact { i2cArm_growsTo h with }
  · exact { perform_growsTo h with }
  · cases h
    exact .refl s

/-- Settles O54: every step grows the histories and keeps the parameters. -/
theorem parametersFixedHistoriesGrow : Obligations.ParametersFixedHistoriesGrow := by
  intro s t h
  obtain ⟨hcfg, htrace, hwire, hresps⟩ := step_growsTo h
  exact ⟨hcfg, htrace, hwire, hresps⟩

/-! ### What reset leaves (10_state R54) -/

/-- Settles O55: `State.resetWith` is the table, and `State.reset` is its case with zeros for what the table leaves open. -/
theorem resetLeavesTabledValues : Obligations.ResetLeavesTabledValues := by
  intro c u
  have hdefault : ∃ w, State.reset = State.resetWith Config.default w := ⟨Unspecified.zero, rfl⟩
  and_intros
  on_goal 32 => exact hdefault
  all_goals rfl

end Sys2Proof.Machine
end

section
/-! Proofs of 20_memory: a space's contents are one function of its bytes (R60). -/

namespace Sys2Proof.Machine

/-- The first listed byte of canonical contents differs from what an unlisted index reads as, so its index can be read off. -/
theorem Memory.read_head_ne_unlisted {a : Nat} {b : Byte} {m : Memory} (h : Memory.wf ((a, b) :: m) = true) :
    Memory.read ((a, b) :: m) a ≠ Memory.unlisted := by
  rw [Memory.read_cons_self]
  exact (Memory.wf_cons h).1

/-- Canonical contents in which every index reads as unlisted list nothing. -/
theorem Memory.eq_nil_of_read_unlisted {m : Memory} (h : m.wf = true) (hread : ∀ i, m.read i = Memory.unlisted) : m = [] := by
  cases m with
  | nil => rfl
  | cons c m => exact absurd (hread c.1) (Memory.read_head_ne_unlisted h)

/-- An index that reads as listed is not below the first listed one. -/
theorem Memory.head_le_of_read_ne_unlisted {a i : Nat} {b : Byte} {m : Memory} (h : Memory.wf ((a, b) :: m) = true)
    (hread : Memory.read ((a, b) :: m) i ≠ Memory.unlisted) : a ≤ i := by
  obtain ⟨-, habove, -⟩ := Memory.wf_cons h
  by_contra hlt
  rw [Nat.not_le] at hlt
  refine hread (Memory.read_below fun c hc => ?_)
  rcases List.mem_cons.1 hc with rfl | hc
  · exact hlt
  · exact hlt.trans (habove c hc)

/-- What the rest of canonical contents reads as: the same, but nothing at the first index. -/
theorem Memory.read_tail {a : Nat} {b : Byte} {m : Memory} (h : Memory.wf ((a, b) :: m) = true) (i : Nat) :
    m.read i = if i = a then Memory.unlisted else Memory.read ((a, b) :: m) i := by
  obtain ⟨-, habove, -⟩ := Memory.wf_cons h
  split
  · next heq => exact heq ▸ Memory.read_below habove
  · next hne => rw [Memory.read_cons_ne (Ne.symm hne)]

/-- Settles O56, by induction on the contents: equal reads have the same first index and the same byte there, and the rests read
alike too. -/
theorem equalReadsEqualMemories : Obligations.EqualReadsEqualMemories := by
  intro m
  induction m with
  | nil =>
    intro n _ hn hread
    exact (Memory.eq_nil_of_read_unlisted hn fun i => (hread i).symm).symm
  | cons c m ih =>
    intro n hm hn hread
    cases n with
    | nil => exact Memory.eq_nil_of_read_unlisted hm hread
    | cons d n =>
      obtain ⟨a, b⟩ := c
      obtain ⟨a', b'⟩ := d
      have hle : a' ≤ a := Memory.head_le_of_read_ne_unlisted hn (hread a ▸ Memory.read_head_ne_unlisted hm)
      have hge : a ≤ a' := Memory.head_le_of_read_ne_unlisted hm ((hread a').symm ▸ Memory.read_head_ne_unlisted hn)
      obtain rfl : a = a' := Nat.le_antisymm hge hle
      have hbyte : b = b' := by simpa only [Memory.read_cons_self] using hread a
      have htail : ∀ i, Memory.read m i = Memory.read n i := fun i => by rw [Memory.read_tail hm, Memory.read_tail hn, hread]
      obtain ⟨-, -, hm'⟩ := Memory.wf_cons hm
      obtain ⟨-, -, hn'⟩ := Memory.wf_cons hn
      rw [hbyte, ih n hm' hn' htail]

end Sys2Proof.Machine
end

section
/-! Proofs of 20_memory: no state of the invariant stops at an index that does not exist (R77); the one stop is a label whose bytes
are no bus record (30_encoding R90). -/

namespace Sys2Proof.Machine

/-! ### Every index the handlers use exists -/

/-- A transmit with a byte to send has a buffer with a byte 0. -/
theorem addressAcked_runs {s : State} (hcap : s.i2cLen.toNat ≤ s.cfg.i2cBufLen) : ∃ t, addressAcked s = .next t := by
  unfold addressAcked
  split
  · split
    · exact ⟨_, rfl⟩
    · next hlen =>
      have hroom : 0 < s.cfg.i2cBufLen := by bv_omega
      exact ⟨_, loadByte_inside hroom⟩
  · exact ⟨_, rfl⟩

/-- A byte that is not the last one has a next one below `i2c_len`. -/
theorem byteAcked_runs {s : State} (hidx : s.i2cIdx.toNat < s.i2cLen.toNat) (hcap : s.i2cLen.toNat ≤ s.cfg.i2cBufLen) :
    ∃ t, byteAcked s = .next t := by
  unfold byteAcked
  simp only
  split
  · exact ⟨_, rfl⟩
  · next hmore =>
    have hroom : (s.i2cIdx + 1).toNat < s.cfg.i2cBufLen := by bv_omega
    exact ⟨_, loadByte_inside hroom⟩

theorem byteReceived_runs {d : Byte} {s : State} (hroom : s.i2cIdx.toNat < s.cfg.i2cBufLen) :
    ∃ t, byteReceived d s = .next t := by
  rw [byteReceived, storeByte_inside hroom]
  simp only
  split <;> exact ⟨_, rfl⟩

/-- The handler runs whichever arm the event selects: the phase bounds the buffer's index, the ring bounds its head. -/
theorem i2cIsr_runs {s : State} (h : s.Inv) : ∃ t, i2cArm s.i2cEv s.i2cEvData s.clearI2cRequest = .next t := by
  have hcap := h.transport.lenCap
  have hhead : s.clearI2cRequest.i2cErrHead.toNat < s.clearI2cRequest.cfg.i2cErrlogLen := h.transport.errHead
  obtain ⟨-, -, harm⟩ | ⟨-, -, harm⟩ | ⟨-, -, harm⟩ | ⟨hp, -, harm⟩ | ⟨-, -, harm⟩ | ⟨-, -, harm⟩ | ⟨hp, -, harm⟩ |
    ⟨-, -, harm⟩ | harm := i2cArm_cases s.i2cEv s.i2cEvData s.clearI2cRequest
  all_goals rw [harm]
  · exact faultCallback_runs hhead
  · exact faultCallback_runs hhead
  · exact addressAcked_runs hcap
  · obtain ⟨-, hidx, -⟩ := h.phaseInv_tx hp
    exact byteAcked_runs hidx hcap
  · exact faultCallback_runs hhead
  · exact faultCallback_runs hhead
  · obtain ⟨-, hidx, -⟩ := h.phaseInv_rx hp
    exact byteReceived_runs (hidx.trans_le hcap)
  · exact ⟨_, rfl⟩
  · exact ⟨_, rfl⟩

/-! ### Every index the commands use exists -/

/-- A command answers a next state where its effect does, its checks passed. -/
theorem guarded_runs {cs : List (Option Status)} {s : State} {run : Result}
    (hrun : firstRaised cs = none → ∃ t, run = .next t) : ∃ t, guarded cs s run = .next t := by
  cases hc : firstRaised cs with
  | some e => exact ⟨_, guarded_raise hc⟩
  | none => exact guarded_pass hc ▸ hrun hc

theorem guarded_next_runs (cs : List (Option Status)) (s u : State) : ∃ t, guarded cs s (.next u) = .next t :=
  guarded_runs fun _ => ⟨u, rfl⟩

theorem busStep_runs (fits : Bool) (e : Event) (d : Byte) (w : List WireSym) (s : State) :
    ∃ t, busStep fits e d w s = .next t := by
  unfold busStep
  split <;> exact ⟨_, rfl⟩

/-- Every entry of the history stands inside the ring, whatever its age. -/
theorem State.Inv.errIndex_lt {s : State} (h : s.Inv) (age : Nat) : s.errIndex age < s.cfg.i2cErrlogLen :=
  Nat.mod_lt _ (Nat.zero_lt_of_lt h.transport.errHead)

/-- Every instruction answers a next state: an index is used only where a check or the ring keeps it below the capacity. -/
theorem exec_runs {s : State} (h : s.Inv) (i : Instr) : ∃ t, exec i s = .next t := by
  cases i with
  | schRun | schRet | sysRd | tbStart | tbStop | tbNow | tbElapsed | dlyMs | dlyUs | i2cInit | i2cSetaddr | i2cReset
  | i2cResult => exact guarded_next_runs _ _ _
  | gateReq =>
    refine guarded_runs fun _ => ?_
    split_ifs <;> exact ⟨_, rfl⟩
  | gateRel | i2cStarttx | i2cStartrx | i2cWait =>
    refine guarded_runs fun _ => ?_
    split <;> exact ⟨_, rfl⟩
  | i2cPush b =>
    refine guarded_runs fun hc => ?_
    have hcheck := check_passes hc
      (c := checkThat (s.i2cBusy || decide (s.i2cTxlen.toNat < s.cfg.i2cBufLen)) .state) (by simp)
    split
    · exact ⟨_, rfl⟩
    · next hidle =>
      have hroom : s.i2cTxlen.toNat < s.cfg.i2cBufLen := by simpa [hidle] using hcheck
      exact ⟨_, storeByte_inside hroom⟩
  | i2cRxrd x =>
    refine guarded_runs fun hc => ?_
    have hcheck := check_passes hc (c := checkThat (decide (x.toNat < s.i2cRxlen.toNat)) .operand) (by simp)
    have hreceived : x.toNat < s.i2cRxlen.toNat := by simpa using hcheck
    exact ⟨_, loadByte_inside (hreceived.trans_le h.transport.rxCap)⟩
  | i2cErrrd x => exact guarded_runs fun _ => ⟨_, loadByte_inside (h.errIndex_lt x.toNat)⟩
  | busAck | busNack | busData | busStopped | busCollision => exact busStep_runs _ _ _ _ _

/-! ### What a label and a step can answer -/

/-- What the bus presents runs, or is refused as no record. -/
theorem performRecord_runs_or_refuses {s : State} (h : s.Inv) (r : Record) :
    (∃ t, performRecord r s = .next t) ∨ performRecord r s = .refused (.notABusRecord r) := by
  unfold performRecord
  split
  · exact .inl (exec_runs h _)
  · exact .inr rfl

/-- A label runs, or brings two bytes from the bus that are no record. -/
theorem perform_runs_or_refuses {s : State} (h : s.Inv) (l : Label) :
    (∃ t, perform l s = .next t) ∨
    ∃ r, (l = .bus r ∨ l = .tickBus r) ∧ perform l s = .refused (.notABusRecord r) := by
  cases l with
  | cmd p =>
    left
    simp only [perform, performPacket]
    split
    · exact exec_runs h _
    · exact ⟨_, rfl⟩
  | poll | tick | usTick => exact .inl ⟨_, rfl⟩
  | bus r => exact (performRecord_runs_or_refuses h r).imp id fun hr => ⟨r, .inl rfl, hr⟩
  | tickBus r =>
    obtain ⟨t, ht⟩ | hr := performRecord_runs_or_refuses h r
    · exact .inl ⟨tickStep t, by rw [perform, ht, alsoTick]⟩
    · exact .inr ⟨r, .inr rfl, by rw [perform, hr, alsoTick]⟩

/-- A step runs, or takes from the agenda two bytes of the bus that are no record. -/
theorem step_runs_or_refuses {s : State} (h : s.Inv) :
    (∃ t, step s = .next t) ∨
    ∃ r, (.bus r ∈ s.agenda ∨ .tickBus r ∈ s.agenda) ∧ step s = .refused (.notABusRecord r) := by
  obtain ⟨-, he⟩ | ⟨-, -, he⟩ | ⟨-, -, l, rest, hl, he⟩ | ⟨-, -, -, he⟩ := step_cases s
  all_goals rw [he]
  · exact .inl ⟨_, rfl⟩
  · exact .inl (i2cIsr_runs h)
  · obtain ⟨-, -, hmem, -⟩ := nextLabel_some hl
    obtain hruns | ⟨r, rfl | rfl, hr⟩ := perform_runs_or_refuses (h.with_agenda rest) l
    · exact .inl hruns
    · exact .inr ⟨r, .inl hmem, hr⟩
    · exact .inr ⟨r, .inr hmem, hr⟩
  · exact .inl ⟨_, rfl⟩

/-- Settles O59: a step from the invariant answers a next state or that one refusal, so no fault and no other refusal. -/
theorem invariantStatesNeverFault : Obligations.InvariantStatesNeverFault := by
  intro s h
  obtain ⟨t, ht⟩ | ⟨b, hmem, hb⟩ := step_runs_or_refuses h
  · rw [ht]
    exact ⟨nofun, nofun⟩
  · rw [hb]
    refine ⟨nofun, fun r hr => ?_⟩
    cases hr
    exact ⟨b, rfl, hmem⟩

end Sys2Proof.Machine
end

section
/-! Proofs of 30_encoding, the layer: what a format reads, what the opcode map holds, when a packet decodes (R81 to R85). -/

namespace Sys2Proof

/-! ### Little-endian operands (30_encoding R82) -/

theorem byteAt_zero_of_byte (b : Byte) : byteAt b 0 = b := BitVec.extractLsb'_eq_self

theorem byteAt_append_zero {w : Nat} (v : BitVec w) (b : Byte) : byteAt (v ++ b) 0 = b :=
  BitVec.extractLsb'_append_eq_right

theorem byteAt_append_succ {w : Nat} (v : BitVec w) (b : Byte) (k : Nat) : byteAt (v ++ b) (k + 1) = byteAt v k := by
  rw [byteAt, byteAt, Nat.mul_succ, BitVec.extractLsb'_append_eq_of_le (Nat.le_add_left 8 _), Nat.add_sub_cancel]

/-- The two bytes of an `imm16` are the ones it was made of, in their order. -/
theorem bytes_imm16 (b0 b1 : Byte) : [byteAt (imm16 b0 b1) 0, byteAt (imm16 b0 b1) 1] = [b0, b1] := by
  rw [imm16, byteAt_append_zero, byteAt_append_succ, byteAt_zero_of_byte]

/-- The four bytes of an `imm32` are the ones it was made of, in their order. -/
theorem bytes_imm32 (b0 b1 b2 b3 : Byte) :
    [byteAt (imm32 b0 b1 b2 b3) 0, byteAt (imm32 b0 b1 b2 b3) 1, byteAt (imm32 b0 b1 b2 b3) 2,
      byteAt (imm32 b0 b1 b2 b3) 3] = [b0, b1, b2, b3] := by
  simp only [imm32, byteAt_append_zero, byteAt_append_succ _ _ 0, byteAt_append_succ _ _ 1, byteAt_append_succ _ _ 2,
    byteAt_zero_of_byte]

@[simp] theorem imm16_byteAt (n : Half) : imm16 (byteAt n 0) (byteAt n 1) = n := by
  rw [imm16, byteAt, byteAt, BitVec.extractLsb'_append_extractLsb'_eq_extractLsb' (by rfl)]
  exact BitVec.extractLsb'_eq_self

@[simp] theorem imm32_byteAt (v : Word) : imm32 (byteAt v 0) (byteAt v 1) (byteAt v 2) (byteAt v 3) = v := by
  simp only [imm32, byteAt]
  iterate 3 rw [BitVec.extractLsb'_append_extractLsb'_eq_extractLsb' (by rfl)]
  exact BitVec.extractLsb'_eq_self

/-! ### What a format reads (30_encoding R81, R84) -/

/-- The instruction a format makes of operand bytes, if they are as many as it has. -/
def Form.read : Form → List Byte → Option Instr
  | .f0 i, [] => some i
  | .f1 mk, [b] => some (mk b)
  | .f2 mk, [b0, b1] => some (mk (imm16 b0 b1))
  | .f4 mk, [b0, b1, b2, b3] => some (mk (imm32 b0 b1 b2 b3))
  | _, _ => none

/-- A format reads exactly the operands of its length. -/
theorem Form.read_eq_none {f : Form} {bs : List Byte} : f.read bs = none ↔ bs.length ≠ f.operandLength := by
  cases f <;> rcases bs with _ | ⟨b0, _ | ⟨b1, _ | ⟨b2, _ | ⟨b3, _ | ⟨b4, bs⟩⟩⟩⟩⟩ <;> simp [Form.read, Form.operandLength]

/-- `Decode(pkt)` through the map and the format (30_encoding R84): no format in the map, or not as many bytes as it has, or the
instruction it reads. -/
theorem decode_cmd_eq (p : Packet) :
    decode (.cmd p) =
      (formOf p.opcode).elim (.error .illegal) fun f => (f.read p.operand).elim (.error .length) .ok := by
  obtain ⟨op, bs⟩ := p
  simp only [decode, decodePacket]
  cases formOf op with
  | none => rfl
  | some f =>
    cases f <;> rcases bs with _ | ⟨b0, _ | ⟨b1, _ | ⟨b2, _ | ⟨b3, _ | ⟨b4, bs⟩⟩⟩⟩⟩ <;> rfl

theorem decode_cmd_illegal {p : Packet} : decode (.cmd p) = .error .illegal ↔ formOf p.opcode = none := by
  rw [decode_cmd_eq]
  cases formOf p.opcode with
  | none => simp
  | some f => cases hread : f.read p.operand <;> simp [hread]

theorem decode_cmd_length {p : Packet} :
    decode (.cmd p) = .error .length ↔ ∃ f, formOf p.opcode = some f ∧ p.operand.length ≠ f.operandLength := by
  rw [decode_cmd_eq]
  cases formOf p.opcode with
  | none => simp
  | some f => cases hread : f.read p.operand <;> simp [← Form.read_eq_none, hread]

theorem decode_cmd_ok {p : Packet} {i : Instr} :
    decode (.cmd p) = .ok i ↔ ∃ f, formOf p.opcode = some f ∧ f.read p.operand = some i := by
  rw [decode_cmd_eq]
  cases formOf p.opcode with
  | none => simp
  | some f => cases hread : f.read p.operand <;> simp [hread]

/-! ### What the opcode map holds (30_encoding R83, R85) -/

theorem opcode_of_toNat {op : Byte} {n : Nat} (h : op.toNat = n) : op = BitVec.ofNat 8 n := by
  rw [← h, BitVec.ofNat_toNat, BitVec.setWidth_eq]

/-- The encoder writes every instruction of the format under the opcode. -/
def Form.EncodedUnder (op : Byte) : Form → Prop
  | .f0 i => encode i = .cmd ⟨op, []⟩
  | .f1 mk => ∀ b, encode (mk b) = .cmd ⟨op, [b]⟩
  | .f2 mk => ∀ n, encode (mk n) = .cmd ⟨op, [byteAt n 0, byteAt n 1]⟩
  | .f4 mk => ∀ v, encode (mk v) = .cmd ⟨op, [byteAt v 0, byteAt v 1, byteAt v 2, byteAt v 3]⟩

/-- The map and the encoder give each instruction the same opcode and format. -/
theorem encodedUnder_of_formOf {op : Byte} {f : Form} (h : formOf op = some f) : f.EncodedUnder op := by
  unfold formOf at h
  split at h <;> cases h
  all_goals
    next hop =>
      obtain rfl := opcode_of_toNat hop
      simp [Form.EncodedUnder, encode]

/-- What a format reads under an opcode of the map is encoded as just these bytes. -/
theorem encode_of_read {op : Byte} {f : Form} {bs : List Byte} {i : Instr} (hform : formOf op = some f)
    (hread : f.read bs = some i) : encode i = .cmd ⟨op, bs⟩ := by
  have henc := encodedUnder_of_formOf hform
  unfold Form.read at hread
  split at hread <;> cases hread
  · exact henc
  · exact henc _
  · rw [henc, bytes_imm16]
  · rw [henc, bytes_imm32]

/-- The reserved opcodes (30_encoding R85). -/
theorem formOf_eq_none {op : Byte} :
    formOf op = none ↔
      (op = 0x00 ∨ op = 0x03 ∨ (0x05 ≤ op ∧ op ≤ 0x0F) ∨ (0x16 ≤ op ∧ op ≤ 0x1F) ∨ (0x2A ≤ op ∧ op ≤ 0x2F) ∨ 0x32 ≤ op) := by
  unfold formOf
  split
  case h_22 =>
    simp only [imp_false, true_iff] at *
    bv_omega
  all_goals
    next hop =>
      obtain rfl := opcode_of_toNat hop
      decide

/-- Which opcodes have an operand of which length (30_encoding R83). -/
theorem exists_formOf_length {op : Byte} {P : Nat → Prop} :
    (∃ f, formOf op = some f ∧ P f.operandLength) ↔
      (op ∈ [0x01, 0x02, 0x10, 0x11, 0x12, 0x22, 0x24, 0x26, 0x27, 0x30, 0x31] ∧ P 0) ∨
      (op ∈ [0x04, 0x20, 0x21, 0x23, 0x25, 0x28, 0x29] ∧ P 1) ∨ (op ∈ [0x14, 0x15] ∧ P 2) ∨ (op = 0x13 ∧ P 4) := by
  unfold formOf
  split
  case h_22 =>
    simp_all [← BitVec.toNat_inj]
  all_goals
    next hop =>
      obtain rfl := opcode_of_toNat hop
      simp [Form.operandLength]

end Sys2Proof
end

section
/-! Proofs of 30_encoding: decoder and encoder are inverse (R81 to R83, R90), and which packets are rejected (R84, R85). -/

namespace Sys2Proof.Machine

/-! ### Decoder and encoder -/

/-- Settles O5, by cases on the instruction: the wider operands are put together again from their bytes, every other operand is a
byte of its own. -/
theorem decodeInvertsEncode : Obligations.DecodeInvertsEncode := by
  intro i
  cases i with
  | dlyMs n | dlyUs n =>
    refine decode_cmd_ok.2 ⟨_, rfl, ?_⟩
    rw [Form.read, imm16_byteAt]
  | tbElapsed stamp =>
    refine decode_cmd_ok.2 ⟨_, rfl, ?_⟩
    rw [Form.read, imm32_byteAt]
  | _ => rfl

/-- Settles O4: the encoder writes each of the six as given. -/
theorem writtenPacketsDecode : Obligations.WrittenPacketsDecode :=
  ⟨decodeInvertsEncode (.tbElapsed 0xFFFFFFFB), decodeInvertsEncode (.dlyMs 0x0102), decodeInvertsEncode (.i2cInit 0x68),
    decodeInvertsEncode .gateRel, decodeInvertsEncode (.sysRd 0x21), decodeInvertsEncode (.busData 0x25)⟩

theorem encode_of_decode_packet {p : Packet} {i : Instr} (h : decode (.cmd p) = .ok i) : encode i = .cmd p := by
  obtain ⟨f, hform, hread⟩ := decode_cmd_ok.1 h
  exact encode_of_read hform hread

/-- A record of the table is its instruction's encoding: its kind is the one matched, its data byte 0 or the instruction's operand. -/
theorem encode_of_decode_record {r : Record} {i : Instr} (h : decode (.bus r) = .ok i) : encode i = .bus r := by
  obtain ⟨kind, data⟩ := r
  simp only [decode, decodeRecord] at h
  split at h <;> cases h
  case h_3 hkind => rw [opcode_of_toNat hkind]; rfl
  all_goals
    next hkind hdata =>
      rw [opcode_of_toNat hkind, eq_of_beq hdata]
      rfl

/-- Settles O6. -/
theorem encodeInvertsDecode : Obligations.EncodeInvertsDecode :=
  fun _ => ⟨fun _ => encode_of_decode_packet, fun _ => encode_of_decode_record⟩

/-! ### Packets that do not decode -/

/-- The step that presents a packet which does not decode answers the status of its error and changes nothing else. -/
theorem step_of_decode_error {p : Packet} {e : DecodeError} {s : State} {rest : List Label} (hquiet : s.quiet)
    (hold : s.dlyActive = false) (hagenda : s.agenda = .cmd p :: rest) (hd : decode (.cmd p) = .error e) :
    step s = .next { s with agenda := rest, resps := s.resps ++ [⟨decodeStatus e, 0⟩] } := by
  obtain ⟨hTick, hI2c⟩ := hquiet
  rw [step_label hTick hI2c hagenda (.inl hold)]
  simp only [perform, performPacket, hd]
  rfl

/-- Settles O7: a packet is illegal exactly where the map has no format for its opcode. -/
theorem reservedOpcodesAreIllegal : Obligations.ReservedOpcodesAreIllegal :=
  fun _ => ⟨decode_cmd_illegal.trans formOf_eq_none, fun _ _ => step_of_decode_error⟩

/-- Settles O8: a packet has the wrong length exactly where the map has a format for its opcode, and one of another length. -/
theorem wrongLengthIsRejected : Obligations.WrongLengthIsRejected :=
  fun p => ⟨decode_cmd_length.trans (exists_formOf_length (P := (p.operand.length ≠ ·))), fun _ _ => step_of_decode_error⟩

end Sys2Proof.Machine
end

section
/-! Proofs of 30_encoding: one response per packet run, an open hold counted as one owed (R87, 40_timebase R106). -/

namespace Sys2Proof.Machine

/-! ### Responses under the shared operations -/

/-- One more response delivered, the hold as it was. -/
theorem State.responses_append {s t : State} {r : Response} (hresps : t.resps = s.resps ++ [r]) (hold : t.dlyActive = s.dlyActive) :
    t.responses = s.responses + 1 := by
  rw [State.responses, State.responses, hresps, hold, List.length_append, List.length_singleton, Nat.add_right_comm]

theorem State.responses_respond (s : State) (v : Word) : (s.respond v).responses = s.responses + 1 :=
  State.responses_append rfl rfl

theorem State.responses_reject (s : State) (e : Status) : (s.reject e).responses = s.responses + 1 :=
  State.responses_append rfl rfl

/-- The end of a hold delivers the response that it owed. -/
theorem endHold_responses (s : State) : (endHold s).responses = s.responses := by
  obtain ⟨hold, -, he⟩ | ⟨-, he⟩ := endHold_cases s <;> rw [he]
  rw [State.responses_respond]
  simp [State.responses, hold]

/-- A delay command owes its response, or delivers it at once. -/
theorem beginHold_responses {s : State} (hold : s.dlyActive = false) (need : Word) :
    (beginHold need s).responses = s.responses + 1 := by
  rw [beginHold, endHold_responses]
  simp [State.responses, hold]

/-- Every command that runs with no hold open is answered once. -/
theorem CommandEffect.responses {s t : State} (hold : s.dlyActive = false) (he : CommandEffect s t) :
    t.responses = s.responses + 1 := by
  cases he with
  | rejected e => exact s.responses_reject e
  | holdBegun need => exact beginHold_responses hold need
  | abandoned =>
    rw [State.responses_respond]
    split <;> rfl
  | waited =>
    rw [State.responses_respond]
    unfold State.countWait
    simp only
    split <;> rfl
  | answered | running | pollEnded | gateTaken | gateReleased | tickStarted | tickStopped | inited | addressSet | collided | pushed
  | transmitStarted | receiveStarted => exact State.responses_respond _ _

/-! ### No response from the other agents and the handlers -/

theorem tickStep_responses (s : State) : (tickStep s).responses = s.responses := by
  unfold tickStep
  split <;> rfl

theorem pollStep_responses (s : State) : (pollStep s).responses = s.responses := by
  unfold pollStep
  split <;> rfl

theorem usTickStep_responses (s : State) : (usTickStep s).responses = s.responses :=
  endHold_responses { s with frCount := s.frCount + 1 }

theorem busInstr_responses {i : Instr} {s t : State} (hi : i.isBus = true) (h : exec i s = .next t) :
    t.responses = s.responses := by
  obtain rfl | ⟨-, -, e, d, w, rfl, -⟩ := busInstr_next hi h <;> rfl

theorem faultCallback_responses {k : FaultKind} {s t : State} (h : faultCallback k s = .next t) :
    t.responses = s.responses := by
  obtain ⟨-, rfl⟩ := faultCallback_next h
  rfl

theorem i2cArm_responses {e : Event} {d : Byte} {s t : State} (h : i2cArm e d s = .next t) : t.responses = s.responses := by
  obtain ⟨-, -, harm⟩ | ⟨-, -, harm⟩ | ⟨-, -, harm⟩ | ⟨-, -, harm⟩ | ⟨-, -, harm⟩ | ⟨-, -, harm⟩ | ⟨-, -, harm⟩ |
    ⟨-, -, harm⟩ | harm := i2cArm_cases e d s
  all_goals rw [harm] at h
  · exact faultCallback_responses h
  · exact faultCallback_responses h
  · obtain ⟨-, rfl⟩ | ⟨-, -, rfl⟩ | ⟨-, -, rfl⟩ := addressAcked_next h <;> rfl
  · obtain ⟨-, rfl⟩ | ⟨-, -, rfl⟩ := byteAcked_next h <;> rfl
  · exact faultCallback_responses h
  · exact faultCallback_responses h
  · obtain ⟨-, ⟨-, rfl⟩ | ⟨-, rfl⟩⟩ := byteReceived_next h <;> rfl
  · cases h
    rfl
  · cases h
    rfl

/-! ### Responses of a label and of a step -/

/-- A packet adds one response, any other label none. -/
theorem perform_responses {l : Label} {s t : State} (hold : l.isCmd = true → s.dlyActive = false) (h : perform l s = .next t) :
    t.responses = s.responses + (if l.isCmd then 1 else 0) := by
  obtain ⟨p, i, rfl, hd, hx⟩ | ⟨p, e, rfl, -, rfl⟩ | ⟨rfl, rfl⟩ | ⟨rfl, rfl⟩ | ⟨rfl, rfl⟩ | ⟨r, i, rfl, hd, hx⟩ |
    ⟨r, i, u, rfl, hd, hx, rfl⟩ := perform_next h
  · exact (commandEffect_of_exec (isBus_of_packet hd) hx).responses (hold rfl)
  · exact s.responses_reject _
  · exact pollStep_responses s
  · exact tickStep_responses s
  · exact usTickStep_responses s
  · exact busInstr_responses (isBus_of_decode hd rfl) hx
  · exact (tickStep_responses u).trans (busInstr_responses (isBus_of_decode hd rfl) hx)

/-- The label that moves is a packet exactly where no hold is open and the agenda begins with one. -/
theorem isCmd_of_nextLabel {s : State} {l : Label} {rest : List Label} (h : nextLabel s.dlyActive s.agenda = some (l, rest)) :
    l.isCmd = true ↔ s.dlyActive = false ∧ s.agenda.head?.map Label.isCmd = some true := by
  obtain ⟨hopen, hheld, -⟩ := nextLabel_some h
  cases hold : s.dlyActive with
  | true => simp [hheld hold]
  | false => simp [hopen hold]

/-- Where no label moves, no packet could have. -/
theorem no_packet_of_nextLabel {s : State} (h : nextLabel s.dlyActive s.agenda = none) :
    ¬(s.dlyActive = false ∧ s.agenda.head?.map Label.isCmd = some true) := by
  rintro ⟨hold, hcmd⟩
  obtain hnil | ⟨hheld, -⟩ := nextLabel_none h
  · simp [hnil] at hcmd
  · simp [hold] at hheld

/-- Settles O53: the handlers answer nothing, and a quiet step answers exactly where the label that moves is a packet. -/
theorem oneResponsePerCommand : Obligations.OneResponsePerCommand := by
  intro s t h
  obtain ⟨hT, he⟩ | ⟨-, hI, he⟩ | ⟨hT, hI, l, rest, hl, he⟩ | ⟨-, -, hl, he⟩ := step_cases s
  all_goals rw [he] at h
  · cases h
    simp only [State.quiet, hT, Bool.true_eq_false, false_and, if_false]
    rfl
  · simp only [State.quiet, hI, Bool.true_eq_false, and_false, false_and, if_false]
    exact i2cArm_responses (s := s.clearI2cRequest) h
  · have hcmd := isCmd_of_nextLabel hl
    have hadded : t.responses = s.responses + (if l.isCmd then 1 else 0) :=
      perform_responses (s := { s with agenda := rest }) (fun hc => (hcmd.1 hc).1) h
    simpa only [State.quiet, hT, hI, true_and, hcmd] using hadded
  · cases h
    rw [if_neg fun hc => no_packet_of_nextLabel hl hc.2, Nat.add_zero]

end Sys2Proof.Machine
end

section
/-! Proofs of 40_timebase, the layer: what the checks of a command raise against the table (60_exceptions R211), and the packets of
an opcode's format (30_encoding R81, R82, R84). -/

namespace Sys2Proof.Machine

/-! ### Rejections (60_exceptions R211, R213) -/

/-- A command whose checks raise what the table says is rejected as the table says. -/
theorem rejectsAsTabled_of_guarded {i : Instr} {checks : State → List (Option Status)} {run : State → Result}
    (hexec : ∀ s, exec i s = guarded (checks s) s (run s)) (htable : ∀ s, firstRaised (checks s) = rejection i s) :
    RejectsAsTabled i :=
  fun s _ hrej => (hexec s).trans (guarded_raise ((htable s).trans hrej))

theorem firstRaised_ctxCheck (s : State) (cs : List (Option Status)) :
    firstRaised (ctxCheck s :: cs) = if ¬s.ctxOpen then some .state else firstRaised cs := by
  rw [ctxCheck, firstRaised_checkThat, ite_not]
  simp [imp_iff_not_or]

/-- A command that only a closed context rejects. -/
theorem rejectsAsTabled_of_ctxCheck {i : Instr} {run : State → Result}
    (hexec : ∀ s, exec i s = guarded [ctxCheck s] s (run s)) (hwf : ∀ c, i.wf c = true) (hinit : needsInit i = false)
    (hgate : isGated i = false) (hown : ∀ s, ownRejection i s = none) : RejectsAsTabled i := by
  refine rejectsAsTabled_of_guarded hexec fun s => ?_
  simp only [firstRaised_ctxCheck, firstRaised_nil, rejection, hwf, hinit, hgate, hown, Bool.true_eq_false, Bool.false_eq_true,
    false_and, if_false]

/-- In an open context the context's check lets a command run. -/
theorem guarded_of_ctxOpen {s : State} (hctx : s.ctxOpen) (run : Result) : guarded [ctxCheck s] s run = run :=
  guarded_pass (by rw [ctxCheck_eq_none.2 hctx, firstRaised_none, firstRaised_nil])

/-! ### Formats (30_encoding R81, R82, R84) -/

theorem toNat_append_byte {w : Nat} (v : BitVec w) (b : Byte) : (v ++ b).toNat = 256 * v.toNat + b.toNat := by
  rw [BitVec.toNat_append, ← Nat.shiftLeft_add_eq_or_of_lt b.isLt, Nat.shiftLeft_eq, Nat.mul_comm]

theorem imm16_eq_ofNat (b0 b1 : Byte) : imm16 b0 b1 = BitVec.ofNat 16 (b0.toNat + 256 * b1.toNat) := by
  refine BitVec.eq_of_toNat_eq ?_
  simp only [imm16, toNat_append_byte, BitVec.toNat_ofNat]
  omega

theorem imm32_eq_ofNat (b0 b1 b2 b3 : Byte) :
    imm32 b0 b1 b2 b3 =
      BitVec.ofNat 32 (b0.toNat + 2 ^ 8 * b1.toNat + 2 ^ 16 * b2.toNat + 2 ^ 24 * b3.toNat) := by
  refine BitVec.eq_of_toNat_eq ?_
  simp only [imm32, toNat_append_byte, BitVec.toNat_ofNat]
  omega

/-- Operand bytes that are not as many as the opcode's format has. -/
theorem decode_wrong_length {op : Byte} {f : Form} (hform : formOf op = some f) {operand : List Byte}
    (hlen : operand.length ≠ f.operandLength) : decode (.cmd ⟨op, operand⟩) = .error .length :=
  decode_cmd_length.2 ⟨f, hform, hlen⟩

theorem encodedF0_of_formOf {op : Byte} {i : Instr} (hform : formOf op = some (.f0 i)) : EncodedF0 op i := by
  intro operand
  split
  · next hnil => exact decode_cmd_ok.2 ⟨_, hform, by rw [hnil, Form.read]⟩
  · next hsome => exact decode_wrong_length hform (mt List.length_eq_zero_iff.1 hsome)

theorem encodedF2_of_formOf {op : Byte} {mk : Half → Instr} (hform : formOf op = some (.f2 mk)) : EncodedF2 op mk :=
  ⟨fun b0 b1 => decode_cmd_ok.2 ⟨_, hform, by rw [Form.read, imm16_eq_ofNat]⟩, fun _ => decode_wrong_length hform⟩

theorem encodedF4_of_formOf {op : Byte} {mk : Word → Instr} (hform : formOf op = some (.f4 mk)) : EncodedF4 op mk :=
  ⟨fun b0 b1 b2 b3 => decode_cmd_ok.2 ⟨_, hform, by rw [Form.read, imm32_eq_ofNat]⟩, fun _ => decode_wrong_length hform⟩

end Sys2Proof.Machine
end

section
/-! Proofs of 40_timebase, the layer: the commands as guarded effects, counting modulo `2^TB_WIDTH`, and a delay hold. -/

namespace Sys2Proof.Machine

/-! ### The six commands: their checks and their effect -/

theorem exec_tbStart (s : State) :
    exec .tbStart s = guarded [ctxCheck s] s (.next (State.respond { s with tbCount := 0, tbRun := true } 0)) := rfl

theorem exec_tbStop (s : State) :
    exec .tbStop s = guarded [ctxCheck s] s (.next (State.respond { s with tbRun := false } 0)) := rfl

theorem exec_tbNow (s : State) : exec .tbNow s = guarded [ctxCheck s] s (.next (s.respond s.tbVal)) := rfl

theorem exec_tbElapsed (stamp : Word) (s : State) :
    exec (.tbElapsed stamp) s =
      guarded [stampCheck s.cfg stamp, ctxCheck s] s (.next (s.respond (tbTrunc s.cfg (s.tbCount - stamp)))) := rfl

theorem exec_dlyMs (n : Half) (s : State) :
    exec (.dlyMs n) s = guarded [ctxCheck s] s (.next (beginHold (msNeed n) s)) := rfl

theorem exec_dlyUs (n : Half) (s : State) :
    exec (.dlyUs n) s = guarded [ctxCheck s] s (.next (beginHold (usNeed n) s)) := rfl

/-! ### Counting modulo `2^TB_WIDTH` (40_timebase R113) -/

/-- A cut value fits 32 bits whatever TB_WIDTH is. -/
theorem tbTrunc_toNat (c : Config) (v : Word) : (tbTrunc c v).toNat = v.toNat % 2 ^ c.tbWidth := by
  rw [tbTrunc, BitVec.toNat_ofNat]
  exact Nat.mod_eq_of_lt ((Nat.mod_le _ _).trans_lt v.isLt)

/-- Where the counter is no wider than a word, the wrap of the word is invisible to it. -/
theorem tbWrap_dvd_word {c : Config} (hc : c.wf) : 2 ^ c.tbWidth ∣ 2 ^ 32 := by
  obtain ⟨⟨-, hwidth⟩, -⟩ := hc
  exact Nat.pow_dvd_pow 2 hwidth

theorem tbTrunc_succ_toNat {c : Config} (hc : c.wf) (v : Word) :
    (tbTrunc c (v + 1)).toNat = (v.toNat + 1) % 2 ^ c.tbWidth := by
  rw [tbTrunc_toNat, BitVec.toNat_add]
  exact Nat.mod_mod_of_dvd _ (tbWrap_dvd_word hc)

/-- 40_timebase R104: the difference in words, cut to TB_WIDTH bits, is the integer remainder. -/
theorem tbTrunc_sub_toNat {c : Config} (hc : c.wf) (v stamp : Word) :
    ((tbTrunc c (v - stamp)).toNat : Int) = ((v.toNat : Int) - stamp.toNat) % ((2 ^ c.tbWidth : Nat) : Int) := by
  obtain ⟨m, hm⟩ : ((2 ^ c.tbWidth : Nat) : Int) ∣ ((2 ^ 32 : Nat) : Int) := Int.natCast_dvd_natCast.2 (tbWrap_dvd_word hc)
  have hsum : ((2 ^ 32 - stamp.toNat + v.toNat : Nat) : Int) = (v.toNat : Int) - stamp.toNat + ((2 ^ 32 : Nat) : Int) := by
    have hlt := stamp.isLt
    omega
  rw [tbTrunc_toNat, BitVec.toNat_sub, Nat.mod_mod_of_dvd _ (tbWrap_dvd_word hc), Int.natCast_emod, hsum, hm,
    Int.add_mul_emod_self_left]

/-- A count that has gone `k` on from a stamp, wrapping, differs from it by `k` modulo the wrap. -/
theorem tbTrunc_sub_of_counted {c : Config} (hc : c.wf) {v stamp : Word} {k : Nat}
    (hcounted : v.toNat = (stamp.toNat + k) % 2 ^ c.tbWidth) :
    tbTrunc c (v - stamp) = BitVec.ofNat 32 (k % 2 ^ c.tbWidth) := by
  have hfits : k % 2 ^ c.tbWidth < 2 ^ 32 :=
    (Nat.mod_lt _ (Nat.two_pow_pos _)).trans_le (Nat.le_of_dvd (by decide) (tbWrap_dvd_word hc))
  refine BitVec.eq_of_toNat_eq (Int.natCast_inj.1 ?_)
  rw [tbTrunc_sub_toNat hc, hcounted, BitVec.toNat_ofNat, Nat.mod_eq_of_lt hfits, Int.natCast_emod, Int.natCast_emod,
    Int.emod_sub_emod, Int.natCast_add, add_sub_cancel_left]

/-! ### A delay hold (40_timebase R106) -/

/-- A hold whose time has passed ends, with one response. -/
theorem endHold_of_passed {s : State} (hopen : s.dlyActive = true) (htime : s.dlyNeed.toNat ≤ s.dlyElapsed.toNat) :
    endHold s = State.respond { s with dlyActive := false } 0 := by
  obtain ⟨-, -, he⟩ | ⟨hwait, -⟩ := endHold_cases s
  · exact he
  · exact absurd (hwait hopen) (Nat.not_lt.2 htime)

/-- Where no hold is open, or its time has not passed, none ends. -/
theorem endHold_of_waiting {s : State} (hwait : s.dlyActive = true → s.dlyElapsed.toNat < s.dlyNeed.toNat) :
    endHold s = s := by
  obtain ⟨hopen, htime, -⟩ | ⟨-, he⟩ := endHold_cases s
  · exact absurd (hwait hopen) (Nat.not_lt.2 htime)
  · exact he

theorem beginHold_zero (s : State) :
    beginHold 0 s = State.respond { s with dlyT0 := s.frCount, dlyNeed := 0, dlyActive := false } 0 :=
  endHold_of_passed (s := { s with dlyT0 := s.frCount, dlyNeed := 0, dlyActive := true }) rfl (Nat.zero_le _)

theorem beginHold_of_ne_zero {need : Word} (hneed : need ≠ 0) (s : State) :
    beginHold need s = { s with dlyT0 := s.frCount, dlyNeed := need, dlyActive := true } := by
  refine endHold_of_waiting fun _ => ?_
  simp only [State.dlyElapsed]
  bv_omega

theorem msNeed_eq_ofNat (n : Half) : msNeed n = BitVec.ofNat 32 (1000 * n.toNat) := by
  simp only [msNeed, zext32]
  bv_omega

theorem usNeed_eq_ofNat (n : Half) : usNeed n = BitVec.ofNat 32 n.toNat := by
  simp only [usNeed, zext32]
  bv_omega

theorem msNeed_eq_zero {n : Half} : msNeed n = 0 ↔ n = 0 := by
  rw [msNeed_eq_ofNat]
  bv_omega

theorem usNeed_eq_zero {n : Half} : usNeed n = 0 ↔ n = 0 := by
  rw [usNeed_eq_ofNat]
  bv_omega

/-- What the two delay commands do in an open context, by their need. -/
theorem opensHold_of_exec {i : Instr} {s : State} {need : Word}
    (hexec : exec i s = guarded [ctxCheck s] s (.next (beginHold need s))) (hctx : s.ctxOpen) :
    (need = 0 → exec i s =
      .next { s with dlyT0 := s.frCount, dlyNeed := 0, dlyActive := false, resps := s.resps ++ [⟨.ok, 0⟩] }) ∧
    (need ≠ 0 → exec i s = .next { s with dlyT0 := s.frCount, dlyNeed := need, dlyActive := true }) := by
  rw [hexec, guarded_of_ctxOpen hctx]
  refine ⟨?_, fun hneed => by rw [beginHold_of_ne_zero hneed]⟩
  rintro rfl
  rw [beginHold_zero]
  rfl

end Sys2Proof.Machine
end

section
/-! Proofs of 40_timebase: the commands of unit TB (R101 to R107), TICK (R108, R109) and USTICK (R110). -/

namespace Sys2Proof.Machine

/-! ### The commands on the millisecond counter (40_timebase R101 to R104) -/

/-- Settles O9: its one check passes, and its effect is the whole next state. -/
theorem tbStartZeroesAndArms : Obligations.TbStartZeroesAndArms :=
  ⟨encodedF0_of_formOf rfl, rejectsAsTabled_of_ctxCheck exec_tbStart (fun _ => rfl) rfl rfl (fun _ => rfl),
    fun s hctx => by rw [exec_tbStart, guarded_of_ctxOpen hctx]; rfl⟩

/-- Settles O10: as `TB.START`. -/
theorem tbStopKeepsCount : Obligations.TbStopKeepsCount :=
  ⟨encodedF0_of_formOf rfl, rejectsAsTabled_of_ctxCheck exec_tbStop (fun _ => rfl) rfl rfl (fun _ => rfl),
    fun s hctx => by rw [exec_tbStop, guarded_of_ctxOpen hctx]; rfl⟩

/-- Settles O11: a count that fits is not changed by the cut to TB_WIDTH bits. -/
theorem tbNowReadsCount : Obligations.TbNowReadsCount :=
  ⟨encodedF0_of_formOf rfl, rejectsAsTabled_of_ctxCheck exec_tbNow (fun _ => rfl) rfl rfl (fun _ => rfl),
    fun s hctx hcount => by rw [exec_tbNow, guarded_of_ctxOpen hctx, State.tbVal, tbTrunc_of_lt hcount]; rfl⟩

theorem tbElapsed_rejectsAsTabled (stamp : Word) : RejectsAsTabled (.tbElapsed stamp) := by
  refine rejectsAsTabled_of_guarded (exec_tbElapsed stamp) fun s => ?_
  rw [stampCheck, firstRaised_checkThat, firstRaised_ctxCheck]
  cases hstamp : stampOk s.cfg stamp <;> simp only [rejection, Instr.wf, needsInit, isGated, ownRejection, hstamp, firstRaised_nil,
    Bool.true_eq_false, Bool.false_eq_true, false_and, if_false, if_true]

/-- What `TB.ELAPSED` of a fitting stamp answers in an open context. -/
theorem exec_tbElapsed_of_lt {s : State} {stamp : Word} (hctx : s.ctxOpen) (hstamp : stamp.toNat < 2 ^ s.cfg.tbWidth) :
    exec (.tbElapsed stamp) s = .next (s.answer .ok (tbTrunc s.cfg (s.tbCount - stamp))) := by
  have hok : stampCheck s.cfg stamp = none := stampCheck_eq_none.2 (decide_eq_true hstamp)
  rw [exec_tbElapsed, hok, ctxCheck_eq_none.2 hctx]
  rfl

/-- Settles O12: the answer is the difference of the words, cut to TB_WIDTH bits. -/
theorem tbElapsedSubtractsModularly : Obligations.TbElapsedSubtractsModularly :=
  ⟨encodedF4_of_formOf rfl, tbElapsed_rejectsAsTabled,
    fun s stamp hc hctx hstamp => ⟨_, exec_tbElapsed_of_lt hctx hstamp, tbTrunc_sub_toNat hc s.tbCount stamp⟩⟩

/-! ### The delay commands (40_timebase R106, R107) -/

/-- Settles O13: the need is 0 exactly where `n` is. -/
theorem dlyMsOpensHold : Obligations.DlyMsOpensHold := by
  refine ⟨encodedF2_of_formOf rfl,
    fun n => rejectsAsTabled_of_ctxCheck (exec_dlyMs n) (fun _ => rfl) rfl rfl (fun _ => rfl), fun s n hctx => ?_⟩
  obtain ⟨hends, hopens⟩ := opensHold_of_exec (exec_dlyMs n s) hctx
  rw [← msNeed_eq_ofNat]
  exact ⟨fun hn => hends (msNeed_eq_zero.2 hn), fun hn => hopens (mt msNeed_eq_zero.1 hn)⟩

/-- Settles O14: as `DLY.MS`. -/
theorem dlyUsOpensHold : Obligations.DlyUsOpensHold := by
  refine ⟨encodedF2_of_formOf rfl,
    fun n => rejectsAsTabled_of_ctxCheck (exec_dlyUs n) (fun _ => rfl) rfl rfl (fun _ => rfl), fun s n hctx => ?_⟩
  obtain ⟨hends, hopens⟩ := opensHold_of_exec (exec_dlyUs n s) hctx
  rw [← usNeed_eq_ofNat]
  exact ⟨fun hn => hends (usNeed_eq_zero.2 hn), fun hn => hopens (mt usNeed_eq_zero.1 hn)⟩

/-! ### TICK and TickIsr (40_timebase R104, R108, R109) -/

theorem step_of_ipTick {s : State} (hT : s.ipTick = true) : step s = .next (tickIsr s) := by
  simp [step, stepOnce, dispatch, hT]

/-- A `TICK` posts the request exactly where the timebase runs. -/
theorem tickStep_eq (s : State) : tickStep s = { s with ipTick := s.tbRun || s.ipTick } := by
  unfold tickStep
  split
  · next hrun => simp [State.postTick, hrun]
  · next hrun => rw [show (s.tbRun || s.ipTick) = s.ipTick by simp [hrun]]

/-- Settles O17: a post that leaves the agenda to the rest, and the handler's count cut to TB_WIDTH bits. -/
theorem tickCountsOneAndWraps : Obligations.TickCountsOneAndWraps := by
  refine ⟨fun s rest ⟨hT, hI⟩ hagenda => ?_, fun s hT => ⟨_, step_of_ipTick hT, fun hc => tbTrunc_succ_toNat hc _⟩⟩
  rw [step_label hT hI hagenda (.inr rfl)]
  simp [perform, tickStep_eq, hT]

/-- `k` ticks served: the count is `k` on, and neither the parameters nor the context is touched. -/
theorem tickIsr_iterate {s : State} (hc : s.cfg.wf) (hcount : s.tbCount.toNat < 2 ^ s.cfg.tbWidth) (k : Nat) :
    (tickIsr^[k] s).cfg = s.cfg ∧ (tickIsr^[k] s).schRunning = s.schRunning ∧ (tickIsr^[k] s).schInPoll = s.schInPoll ∧
    (tickIsr^[k] s).tbCount.toNat = (s.tbCount.toNat + k) % 2 ^ s.cfg.tbWidth := by
  induction k with
  | zero => exact ⟨rfl, rfl, rfl, (Nat.mod_eq_of_lt hcount).symm⟩
  | succ k ih =>
    obtain ⟨hcfg, hrunning, hpoll, hk⟩ := ih
    rw [Function.iterate_succ_apply']
    refine ⟨hcfg, hrunning, hpoll, ?_⟩
    rw [tickIsr, hcfg, tbTrunc_succ_toNat hc, hk, Nat.mod_add_mod, Nat.add_assoc]

/-- Settles O20: the count and the stamp differ by the ticks served, and `TB.ELAPSED` gives the difference modulo `2^TB_WIDTH`. -/
theorem elapsedMeasuresServedTicks : Obligations.ElapsedMeasuresServedTicks := by
  intro s k hc hctx hcount
  obtain ⟨hcfg, hrunning, hpoll, hk⟩ := tickIsr_iterate hc hcount k
  have hctx' : (tickIsr^[k] s).ctxOpen := by rwa [State.ctxOpen, hrunning, hpoll]
  rw [exec_tbElapsed_of_lt hctx' (by rwa [hcfg]), hcfg, tbTrunc_sub_of_counted hc hk]

/-! ### USTICK (40_timebase R106, R110) -/

/-- The state `k` microseconds later, with the labels `ls` still to come. -/
def State.later (s : State) (k : Nat) (ls : List Label) : State :=
  { s with frCount := s.frCount + BitVec.ofNat 32 k, agenda := ls }

theorem State.later_zero (s : State) : s.later 0 s.agenda = s := by
  rw [State.later, show s.frCount + BitVec.ofNat 32 0 = s.frCount from BitVec.add_zero _]

theorem State.later_later (s : State) (j k : Nat) (ls ls' : List Label) :
    (s.later j ls).later k ls' = s.later (j + k) ls' := by
  simp only [State.later, BitVec.ofNat_add, BitVec.add_assoc]

/-- The hold is `k` microseconds older, as long as that fits a word. -/
theorem State.later_dlyElapsed {s : State} {k : Nat} (hfits : s.dlyElapsed.toNat + k < 2 ^ 32) (ls : List Label) :
    (s.later k ls).dlyElapsed.toNat = s.dlyElapsed.toNat + k := by
  simp only [State.dlyElapsed, State.later] at *
  bv_omega

theorem step_usTick {s : State} {rest : List Label} (hquiet : s.quiet) (hagenda : s.agenda = .usTick :: rest) :
    step s = .next (endHold (s.later 1 rest)) :=
  step_label hquiet.1 hquiet.2 hagenda (.inr rfl)

/-- Settles O18: with no hold open none can end. -/
theorem usTickCountsOne : Obligations.UsTickCountsOne := by
  intro s rest hquiet hold hagenda
  have hnone : (s.later 1 rest).dlyActive = true → (s.later 1 rest).dlyElapsed.toNat < (s.later 1 rest).dlyNeed.toNat :=
    fun hopen => absurd (hold.symm.trans hopen) Bool.false_ne_true
  exact ⟨s.frCount + 1, BitVec.toNat_add _ _, by rw [step_usTick hquiet hagenda, endHold_of_waiting hnone]; rfl⟩

/-- From a hold that has not run out, `k` steps of `USTICK` that do not pass its need are `k` microseconds, and the hold ends in the
last of them or not at all. -/
theorem run_usTicks {k : Nat} {s t : State} (hquiet : s.quiet) (hopen : s.dlyActive = true)
    (hwait : s.dlyElapsed.toNat < s.dlyNeed.toNat) (hk : s.dlyElapsed.toNat + k ≤ s.dlyNeed.toNat)
    (hagenda : s.agenda = List.replicate k .usTick) (hrun : core.run k s = .next t) : t = endHold (s.later k []) := by
  induction k generalizing s with
  | zero =>
    obtain rfl := run_zero hrun
    rw [← show t.agenda = [] from hagenda, t.later_zero, endHold_of_waiting fun _ => hwait]
  | succ k ih =>
    obtain ⟨u, hstep, hrest⟩ := run_succ hrun
    rw [step_usTick hquiet hagenda] at hstep
    obtain rfl := Host.Outcome.next.inj hstep
    rcases Nat.eq_zero_or_pos k with rfl | hmore
    · exact run_zero hrest
    · have helapsed := State.later_dlyElapsed (s := s) (k := 1) (by omega) (List.replicate k .usTick)
      have hwait' : (s.later 1 (List.replicate k .usTick)).dlyElapsed.toNat < s.dlyNeed.toNat := by omega
      have hk' : (s.later 1 (List.replicate k .usTick)).dlyElapsed.toNat + k ≤ s.dlyNeed.toNat := by omega
      rw [endHold_of_waiting fun _ => hwait'] at hrest
      rw [Nat.add_comm, ← s.later_later]
      exact ih hquiet hopen hwait' hk' rfl hrest

/-- Settles O15: `k` microseconds after it began the hold has lasted `k`, which decides whether it has ended. -/
theorem holdLastsExactlyItsMicroseconds : Obligations.HoldLastsExactlyItsMicroseconds := by
  rintro s need k t hquiet hopen hbegin rfl hk hne hagenda hrun
  have hfresh : s.dlyElapsed.toNat = 0 := by rw [State.dlyElapsed, hbegin, BitVec.sub_self]; rfl
  have helapsed : (s.later k []).dlyElapsed.toNat = k := by rw [State.later_dlyElapsed (by omega), hfresh, Nat.zero_add]
  have hneed : 0 < s.dlyNeed.toNat := Nat.pos_of_ne_zero (BitVec.toNat_ne_iff_ne.2 hne)
  have ht := run_usTicks hquiet hopen (by omega) (by omega) hagenda hrun
  obtain ⟨-, hpassed, he⟩ | ⟨hwaits, he⟩ := endHold_cases (s.later k [])
  all_goals
    rw [he] at ht
    subst ht
  · rw [helapsed] at hpassed
    exact ⟨rfl, rfl, fun hlt => absurd hpassed (Nat.not_le.2 hlt), fun _ => ⟨rfl, rfl⟩⟩
  · have hlt := hwaits hopen
    rw [helapsed] at hlt
    exact ⟨rfl, rfl, fun _ => ⟨hopen, rfl⟩, fun heq => absurd heq hlt.ne⟩

end Sys2Proof.Machine
end

section
/-! Proofs of 40_timebase: the writers of `tb_count` (R112). -/

namespace Sys2Proof.Machine

/-! ### What leaves `tb_count` alone -/

theorem endHold_tbCount (s : State) : (endHold s).tbCount = s.tbCount := by
  obtain ⟨-, -, he⟩ | ⟨-, he⟩ := endHold_cases s <;> rw [he]
  rfl

theorem tickStep_tbCount (s : State) : (tickStep s).tbCount = s.tbCount := by
  rw [tickStep_eq]

theorem pollStep_tbCount (s : State) : (pollStep s).tbCount = s.tbCount := by
  unfold pollStep
  split <;> rfl

theorem countWait_tbCount (s : State) : s.countWait.tbCount = s.tbCount := by
  unfold State.countWait
  simp only
  split <;> rfl

theorem busInstr_tbCount {i : Instr} {s t : State} (hi : i.isBus = true) (h : exec i s = .next t) :
    t.tbCount = s.tbCount := by
  obtain rfl | ⟨-, -, e, d, w, rfl, -⟩ := busInstr_next hi h <;> rfl

theorem i2cArm_tbCount {e : Event} {d : Byte} {s t : State} (h : i2cArm e d s = .next t) : t.tbCount = s.tbCount := by
  have hfault {k : FaultKind} (hk : faultCallback k s = .next t) : t.tbCount = s.tbCount := by
    obtain ⟨-, rfl⟩ := faultCallback_next hk
    rfl
  obtain ⟨-, -, harm⟩ | ⟨-, -, harm⟩ | ⟨-, -, harm⟩ | ⟨-, -, harm⟩ | ⟨-, -, harm⟩ | ⟨-, -, harm⟩ | ⟨-, -, harm⟩ |
    ⟨-, -, harm⟩ | harm := i2cArm_cases e d s
  all_goals rw [harm] at h
  · exact hfault h
  · exact hfault h
  · obtain ⟨-, rfl⟩ | ⟨-, -, rfl⟩ | ⟨-, -, rfl⟩ := addressAcked_next h <;> rfl
  · obtain ⟨-, rfl⟩ | ⟨-, -, rfl⟩ := byteAcked_next h <;> rfl
  · exact hfault h
  · exact hfault h
  · obtain ⟨-, ⟨-, rfl⟩ | ⟨-, rfl⟩⟩ := byteReceived_next h <;> rfl
  · cases h
    rfl
  · cases h
    rfl

/-- A command leaves the count where its own rule does: a rejection changes nothing. -/
theorem tbCount_of_guarded {cs : List (Option Status)} {s t : State} {run : Result} (h : guarded cs s run = .next t)
    (hrun : run = .next t → t.tbCount = s.tbCount) : t.tbCount = s.tbCount := by
  obtain ⟨e, -, rfl⟩ | ⟨-, hr⟩ := guarded_next h
  · rfl
  · exact hrun hr

/-- Of all instructions only `TB.START` writes the count. -/
theorem exec_tbCount {i : Instr} {s t : State} (hi : i ≠ .tbStart) (h : exec i s = .next t) : t.tbCount = s.tbCount := by
  cases i with
  | tbStart => exact absurd rfl hi
  | busAck | busNack | busData | busStopped | busCollision => exact busInstr_tbCount rfl h
  | schRun | schRet | sysRd | tbStop | tbNow | tbElapsed | i2cInit | i2cSetaddr | i2cResult =>
    refine tbCount_of_guarded h fun hr => ?_
    cases hr
    rfl
  | dlyMs | dlyUs =>
    refine tbCount_of_guarded h fun hr => ?_
    cases hr
    exact endHold_tbCount _
  | i2cReset =>
    refine tbCount_of_guarded h fun hr => ?_
    rw [← Host.Outcome.next.inj hr, State.respond_tbCount, State.clearI2cRequest_tbCount, State.clearOperation_tbCount]
    split <;> rfl
  | i2cPush =>
    refine tbCount_of_guarded h fun hr => ?_
    split at hr
    · cases hr
      rfl
    · cases (storeByte_next hr).2
      rfl
  | i2cStarttx | i2cStartrx | gateReq | gateRel =>
    refine tbCount_of_guarded h fun hr => ?_
    split_ifs at hr <;> cases hr <;> rfl
  | i2cWait =>
    refine tbCount_of_guarded h fun hr => ?_
    split at hr <;> cases hr
    · exact countWait_tbCount s
    · rfl
  | i2cRxrd | i2cErrrd =>
    refine tbCount_of_guarded h fun hr => ?_
    cases (loadByte_next hr).2
    rfl

/-! ### The two writers (40_timebase R101, R109, R112) -/

/-- `TB.START` is rejected and changes nothing, or zeroes the count; either way it leaves the agenda. -/
theorem tbStart_next {s t : State} (h : exec .tbStart s = .next t) :
    t.agenda = s.agenda ∧ (t.tbCount = s.tbCount ∨ t.tbCount = 0) := by
  rw [exec_tbStart] at h
  obtain ⟨e, -, rfl⟩ | ⟨-, hr⟩ := guarded_next h
  · exact ⟨rfl, .inl rfl⟩
  · cases hr
    exact ⟨rfl, .inr rfl⟩

/-- Among the labels only the packet of `TB.START` writes the count. -/
theorem perform_tbCount {l : Label} {s t : State} (h : perform l s = .next t) :
    t.tbCount = s.tbCount ∨ (l = encode .tbStart ∧ t.agenda = s.agenda ∧ t.tbCount = 0) := by
  obtain ⟨p, i, rfl, hd, hx⟩ | ⟨p, e, -, -, rfl⟩ | ⟨-, rfl⟩ | ⟨-, rfl⟩ | ⟨-, rfl⟩ | ⟨r, i, rfl, hd, hx⟩ |
    ⟨r, i, u, rfl, hd, hx, rfl⟩ := perform_next h
  · by_cases hi : i = .tbStart
    · subst hi
      obtain ⟨hagenda, hsame | hzero⟩ := tbStart_next hx
      · exact .inl hsame
      · exact .inr ⟨(encode_of_decode_packet hd).symm, hagenda, hzero⟩
    · exact .inl (exec_tbCount hi hx)
  · exact .inl rfl
  · exact .inl (pollStep_tbCount s)
  · exact .inl (tickStep_tbCount s)
  · exact .inl (endHold_tbCount _)
  · exact .inl (busInstr_tbCount (isBus_of_decode hd rfl) hx)
  · exact .inl ((tickStep_tbCount u).trans (busInstr_tbCount (isBus_of_decode hd rfl) hx))

/-- Settles O19: of the ways a step can go, the tick's handler and the packet of `TB.START` remain; the packet moves only where no
hold is open. -/
theorem tbCountHasTwoWriters : Obligations.TbCountHasTwoWriters := by
  intro s t h hchanged
  obtain ⟨hT, he⟩ | ⟨-, -, he⟩ | ⟨hT, hI, l, rest, hl, he⟩ | ⟨-, -, -, he⟩ := step_cases s
  all_goals rw [he] at h
  · cases h
    exact .inl ⟨hT, rfl⟩
  · exact absurd (i2cArm_tbCount h) hchanged
  · obtain hsame | ⟨rfl, hagenda, hzero⟩ := perform_tbCount h
    · exact absurd hsame hchanged
    · obtain ⟨hold, -⟩ := (isCmd_of_nextLabel hl).1 rfl
      exact .inr ⟨⟨hT, hI⟩, hold, by rw [hagenda]; exact (nextLabel_some hl).1 hold, hzero⟩
  · cases h
    exact absurd rfl hchanged

end Sys2Proof.Machine
end

section
/-! Proofs of 40_timebase: the two time sources share no state (R111). -/

namespace Sys2Proof.Machine

/-! ### Runs that do the same whatever some fields hold -/

/-- The state with other values in the free-running counter and the delay hold. -/
def State.withDelay (f t0 n : Word) (a : Bool) (s : State) : State :=
  { s with frCount := f, dlyT0 := t0, dlyNeed := n, dlyActive := a }

/-- The state with other values in the millisecond counter and its tick. -/
def State.withMillis (c : Word) (r p : Bool) (s : State) : State := { s with tbCount := c, tbRun := r, ipTick := p }

/-- A run does the same from the state overwritten by `g`, and what `g` writes is still there after it. -/
def Ignores (g : State → State) (run : State → Result) : Prop := ∀ s t : State, run s = .next t → run (g s) = .next (g t)

/-- A run with one next state, which `g` commutes with. -/
theorem ignores_next {g f : State → State} (hcomm : ∀ s, f (g s) = g (f s)) : Ignores g (fun s => .next (f s)) := by
  intro s t h
  cases h
  exact congrArg _ (hcomm s)

/-- A command whose checks do not read what `g` overwrites, and whose effect commutes with `g`. -/
theorem ignores_guarded {g f : State → State} {checks : State → List (Option Status)}
    (hchecks : ∀ s, checks (g s) = checks s) (hreject : ∀ s e, (g s).reject e = g (s.reject e))
    (hcomm : ∀ s, f (g s) = g (f s)) : Ignores g (fun s => guarded (checks s) s (.next (f s))) := by
  intro s t h
  simp only [hchecks]
  obtain ⟨e, he, rfl⟩ | ⟨hpass, hr⟩ := guarded_next h
  · rw [guarded_raise he, hreject]
  · rw [guarded_pass hpass]
    exact ignores_next hcomm s t hr

/-- What ignores the delay's fields leaves them: overwritten with the values they hold, they are still there after it. -/
theorem Ignores.keeps_delay {run : State → Result} {s t : State} (hrun : ∀ f t0 n a, Ignores (State.withDelay f t0 n a) run)
    (h : run s = .next t) :
    t.frCount = s.frCount ∧ t.dlyActive = s.dlyActive ∧ t.dlyT0 = s.dlyT0 ∧ t.dlyNeed = s.dlyNeed := by
  have hsame : run s = .next (t.withDelay s.frCount s.dlyT0 s.dlyNeed s.dlyActive) := hrun _ _ _ _ s t h
  rw [Host.Outcome.next.inj (h.symm.trans hsame)]
  exact ⟨rfl, rfl, rfl, rfl⟩

/-- What ignores the millisecond counter's fields leaves them, by the same argument. -/
theorem Ignores.keeps_millis {run : State → Result} {s t : State} (hrun : ∀ c r p, Ignores (State.withMillis c r p) run)
    (h : run s = .next t) : t.tbCount = s.tbCount ∧ t.tbRun = s.tbRun ∧ t.ipTick = s.ipTick := by
  have hsame : run s = .next (t.withMillis s.tbCount s.tbRun s.ipTick) := hrun _ _ _ s t h
  rw [Host.Outcome.next.inj (h.symm.trans hsame)]
  exact ⟨rfl, rfl, rfl⟩

/-! ### The millisecond counter ignores the delay path -/

section
variable (f t0 n : Word) (a : Bool)

theorem tick_ignores_delay : Ignores (State.withDelay f t0 n a) (perform .tick) :=
  ignores_next fun s => by rw [tickStep_eq, tickStep_eq]; rfl

theorem tickIsr_ignores_delay : Ignores (State.withDelay f t0 n a) (fun s => .next (tickIsr s)) :=
  ignores_next fun _ => rfl

theorem tbStart_ignores_delay : Ignores (State.withDelay f t0 n a) (exec .tbStart) :=
  ignores_guarded (checks := fun s => [ctxCheck s]) (fun _ => rfl) (fun _ _ => rfl) (fun _ => rfl)

theorem tbStop_ignores_delay : Ignores (State.withDelay f t0 n a) (exec .tbStop) :=
  ignores_guarded (checks := fun s => [ctxCheck s]) (fun _ => rfl) (fun _ _ => rfl) (fun _ => rfl)

theorem tbNow_ignores_delay : Ignores (State.withDelay f t0 n a) (exec .tbNow) :=
  ignores_guarded (checks := fun s => [ctxCheck s]) (fun _ => rfl) (fun _ _ => rfl) (fun _ => rfl)

theorem tbElapsed_ignores_delay (stamp : Word) : Ignores (State.withDelay f t0 n a) (exec (.tbElapsed stamp)) :=
  ignores_guarded (checks := fun s => [stampCheck s.cfg stamp, ctxCheck s]) (fun _ => rfl) (fun _ _ => rfl) (fun _ => rfl)

end

/-! ### The delay path ignores the millisecond counter -/

section
variable (c : Word) (r p : Bool)

theorem endHold_withMillis (s : State) : endHold (s.withMillis c r p) = (endHold s).withMillis c r p := by
  rw [endHold, endHold, apply_ite (State.withMillis c r p)]
  rfl

theorem usTick_ignores_millis : Ignores (State.withMillis c r p) (perform .usTick) :=
  ignores_next fun s => endHold_withMillis c r p { s with frCount := s.frCount + 1 }

theorem beginHold_withMillis (need : Word) (s : State) :
    beginHold need (s.withMillis c r p) = (beginHold need s).withMillis c r p :=
  endHold_withMillis c r p { s with dlyT0 := s.frCount, dlyNeed := need, dlyActive := true }

theorem dlyMs_ignores_millis (m : Half) : Ignores (State.withMillis c r p) (exec (.dlyMs m)) :=
  ignores_guarded (checks := fun s => [ctxCheck s]) (fun _ => rfl) (fun _ _ => rfl) (beginHold_withMillis c r p _)

theorem dlyUs_ignores_millis (m : Half) : Ignores (State.withMillis c r p) (exec (.dlyUs m)) :=
  ignores_guarded (checks := fun s => [ctxCheck s]) (fun _ => rfl) (fun _ _ => rfl) (beginHold_withMillis c r p _)

end

/-- Settles O21: each run of one side ignores the fields of the other, and so leaves them. -/
theorem timeSourcesAreIndependent : Obligations.TimeSourcesAreIndependent := by
  refine ⟨fun stamp run s t hmem h => ?_, fun m run s t hmem h => ?_, fun s t h => ?_⟩
  · have hrun (f t0 n a) : Ignores (State.withDelay f t0 n a) run := by
      simp only [List.mem_cons, List.not_mem_nil, or_false] at hmem
      obtain rfl | rfl | rfl | rfl | rfl | rfl := hmem
      · exact tick_ignores_delay f t0 n a
      · exact tickIsr_ignores_delay f t0 n a
      · exact tbStart_ignores_delay f t0 n a
      · exact tbStop_ignores_delay f t0 n a
      · exact tbNow_ignores_delay f t0 n a
      · exact tbElapsed_ignores_delay f t0 n a stamp
    exact ⟨Ignores.keeps_delay hrun h, fun f t0 n a => hrun f t0 n a s t h⟩
  · have hrun (c r p) : Ignores (State.withMillis c r p) run := by
      simp only [List.mem_cons, List.not_mem_nil, or_false] at hmem
      obtain rfl | rfl | rfl := hmem
      · exact usTick_ignores_millis c r p
      · exact dlyMs_ignores_millis c r p m
      · exact dlyUs_ignores_millis c r p m
    exact ⟨Ignores.keeps_millis hrun h, fun c r p => hrun c r p s t h⟩
  · cases h
    rw [tickStep_eq]

end Sys2Proof.Machine
end

section
/-! Proofs of 41_i2c_transport, the layer: the checks of a command against the table (60_exceptions R211), the packets with one
operand byte (30_encoding R81), and the transport commands as guarded effects. -/

namespace Sys2Proof.Machine

/-! ### The checks of 60_exceptions R211, in order -/

/-- Lines 3 to 7 of the table as checks: the operand, the context, the initialisation, the gate, the command's own. -/
def tableChecks (i : Instr) (s : State) : List (Option Status) :=
  [checkThat (i.wf s.cfg) .operand, ctxCheck s, if needsInit i then initCheck s else none,
    if isGated i then gateCheck s else none, ownRejection i s]

@[simp] theorem checkThat_true (e : Status) : checkThat true e = none := rfl

@[simp] theorem checkThat_false (e : Status) : checkThat false e = some e := rfl

theorem firstRaised_initCheck (s : State) (cs : List (Option Status)) :
    firstRaised (initCheck s :: cs) = if s.i2cInited = false then some .notInit else firstRaised cs := by
  rw [initCheck, firstRaised_checkThat]
  cases s.i2cInited <;> rfl

theorem firstRaised_gateCheck (s : State) (cs : List (Option Status)) :
    firstRaised (gateCheck s :: cs) = if ¬s.gateOpen then some .denied else firstRaised cs := by
  rw [gateCheck, firstRaised_checkThat, ite_not]
  simp [imp_iff_not_or]

/-- The first check that raises anything decides. -/
theorem firstRaised_cons (c : Option Status) (cs : List (Option Status)) : firstRaised (c :: cs) = c.or (firstRaised cs) := by
  cases c <;> rfl

/-- The checks of the table raise what the table says. -/
theorem firstRaised_tableChecks (i : Instr) (s : State) : firstRaised (tableChecks i s) = rejection i s := by
  rw [tableChecks, rejection, firstRaised_checkThat, firstRaised_ctxCheck]
  cases i.wf s.cfg <;> cases needsInit i <;> cases isGated i <;>
    simp only [if_true, if_false, Bool.false_eq_true, Bool.true_eq_false, true_and, false_and, firstRaised_none,
      firstRaised_initCheck, firstRaised_gateCheck, firstRaised_cons (ownRejection i s), firstRaised_nil, Option.or_none]

/-- A command whose checks raise what the table's checks raise is rejected as the table says. -/
theorem rejectsAsTabled_of_tableChecks {i : Instr} {checks : State → List (Option Status)} {run : State → Result}
    (hexec : ∀ s, exec i s = guarded (checks s) s (run s))
    (hchecks : ∀ s, firstRaised (checks s) = firstRaised (tableChecks i s)) : RejectsAsTabled i :=
  rejectsAsTabled_of_guarded hexec fun s => (hchecks s).trans (firstRaised_tableChecks i s)

/-- A command that checks `Ctx()` and `I2cPre` and nothing else. -/
theorem rejectsAsTabled_of_i2cPre {i : Instr} {run : State → Result}
    (hexec : ∀ s, exec i s = guarded [ctxCheck s, initCheck s, gateCheck s] s (run s)) (hwf : ∀ c, i.wf c = true)
    (hinit : needsInit i = true) (hgate : isGated i = true) (hown : ∀ s, ownRejection i s = none) : RejectsAsTabled i :=
  rejectsAsTabled_of_tableChecks hexec fun s => by simp [firstRaised_cons, tableChecks, hwf, hinit, hgate, hown]

/-- `Ctx()` and an initialised transport let a command on to its further checks. -/
theorem firstRaised_of_inited {s : State} (hctx : s.ctxOpen) (hinit : s.i2cInited = true) (cs : List (Option Status)) :
    firstRaised (ctxCheck s :: initCheck s :: cs) = firstRaised cs := by
  rw [ctxCheck_eq_none.2 hctx, initCheck_eq_none.2 hinit, firstRaised_none, firstRaised_none]

/-- `Ctx()` and `I2cPre` let a command on to its further checks. -/
theorem firstRaised_of_ready {s : State} (hctx : s.ctxOpen) (hinit : s.i2cInited = true) (hgate : s.gateOpen)
    (cs : List (Option Status)) : firstRaised (ctxCheck s :: initCheck s :: gateCheck s :: cs) = firstRaised cs := by
  rw [firstRaised_of_inited hctx hinit, gateCheck_eq_none.2 hgate, firstRaised_none]

/-! ### Operands (30_encoding R81, R82) -/

theorem encodedF1_of_formOf {op : Byte} {mk : Byte → Instr} (hform : formOf op = some (.f1 mk)) : EncodedF1 op mk :=
  ⟨fun b => decode_cmd_ok.2 ⟨_, hform, by rw [Form.read]⟩, fun _ => decode_wrong_length hform⟩

/-- A 7-bit address passes the operand's check. -/
theorem addressCheck_of_lt {a : Byte} (ha : a.toNat < 128) : addressCheck a = none := by
  have hbit : a.getLsbD 7 = false := Nat.testBit_lt_two_pow ha
  rw [addressCheck_eq_none, addressOk, hbit, Bool.not_false]

theorem addressOf_eq_setWidth (a : Byte) : addressOf a = a.setWidth 7 := (BitVec.setWidth_eq_extractLsb' (by decide)).symm

theorem countCheck_of_le {c : Config} {n : Byte} (hsome : 1 ≤ n.toNat) (hfits : n.toNat ≤ c.i2cBufLen) :
    countCheck c n = none := by
  rw [countCheck_eq_none, countOk, decide_eq_true hsome, decide_eq_true hfits, Bool.and_self]

/-! ### The ten commands: their checks and their effect -/

section
variable (s : State)

theorem exec_i2cInit (a : Byte) :
    exec (.i2cInit a) s = guarded [addressCheck a, ctxCheck s, gateCheck s, checkThat (!s.i2cInited) .state] s
      (.next (State.respond
        { s.clearOperation with
          i2cInited := true, i2cCbEn := 0b11111, i2cAddr := addressOf a, i2cErrHead := 0, i2cErrCount := 0 } 0)) := rfl

theorem exec_i2cSetaddr (a : Byte) :
    exec (.i2cSetaddr a) s = guarded [addressCheck a, ctxCheck s, initCheck s, gateCheck s, idleCheck s] s
      (.next (State.respond { s with i2cAddr := addressOf a } 0)) := rfl

theorem exec_i2cReset :
    exec .i2cReset s = guarded [ctxCheck s, initCheck s, gateCheck s] s
      (.next (State.respond (State.clearI2cRequest (State.clearOperation (if s.owesStop then s.drive [.stop] else s))) 0)) := rfl

theorem exec_i2cPush (b : Byte) :
    exec (.i2cPush b) s = guarded [ctxCheck s, initCheck s, gateCheck s,
        checkThat (s.i2cBusy || decide (s.i2cTxlen.toNat < s.cfg.i2cBufLen)) .state] s
      (if s.i2cBusy then .next (s.collide.respond 0)
       else storeByte .txbuf s.i2cTxlen.toNat b s fun s => .next (State.respond { s with i2cTxlen := s.i2cTxlen + 1 } 1)) := rfl

theorem exec_i2cStarttx :
    exec .i2cStarttx s = guarded [ctxCheck s, initCheck s, gateCheck s] s
      (if s.i2cBusy then .next (s.collide.respond 0)
       else .next ((s.startOperation .transmit s.i2cTxlen).respond 1)) := rfl

theorem exec_i2cStartrx (n : Byte) :
    exec (.i2cStartrx n) s = guarded [countCheck s.cfg n, ctxCheck s, initCheck s, gateCheck s] s
      (if s.i2cBusy then .next (s.collide.respond 0)
       else .next (State.respond { s.startOperation .receive n with i2cRxlen := 0 } 1)) := rfl

theorem exec_i2cWait :
    exec .i2cWait s = guarded [ctxCheck s, initCheck s, gateCheck s] s
      (if s.i2cBusy then .next (s.countWait.respond 1) else .next (s.respond 0)) := rfl

theorem exec_i2cResult :
    exec .i2cResult s = guarded [ctxCheck s, initCheck s] s (.next (s.respond (zext32 (bit s.succeeded)))) := rfl

theorem exec_i2cRxrd (x : Byte) :
    exec (.i2cRxrd x) s = guarded [ctxCheck s, initCheck s, checkThat (decide (x.toNat < s.i2cRxlen.toNat)) .operand] s
      (loadByte .rxbuf x.toNat s fun b => .next (s.respond (zext32 b))) := rfl

theorem exec_i2cErrrd (x : Byte) :
    exec (.i2cErrrd x) s = guarded [ctxCheck s, initCheck s, checkThat (decide (x.toNat < s.i2cErrCount.toNat)) .operand] s
      (loadByte .errlog (s.errIndex x.toNat) s fun b => .next (s.respond (zext32 b))) := rfl

end

end Sys2Proof.Machine
end

section
/-! Proofs of 41_i2c_transport: the commands on an idle transport and on its results (R121 to R123, R132 to R134). -/

namespace Sys2Proof.Machine

/-! ### Set up and abandon (41_i2c_transport R121 to R123) -/

theorem i2cInit_rejectsAsTabled (a : Byte) : RejectsAsTabled (.i2cInit a) :=
  rejectsAsTabled_of_tableChecks (fun s => exec_i2cInit s a) fun s => by
    cases hinit : s.i2cInited <;>
      simp [firstRaised_cons, tableChecks, addressCheck, Instr.wf, needsInit, isGated, ownRejection, hinit]

theorem exec_i2cInit_of_fresh {s : State} {a : Byte} (ha : a.toNat < 128) (hctx : s.ctxOpen) (hgate : s.gateOpen)
    (hfresh : s.i2cInited = false) :
    exec (.i2cInit a) s = .next (State.respond
      { s.clearOperation with
        i2cInited := true, i2cCbEn := 0b11111, i2cAddr := a.setWidth 7, i2cErrHead := 0, i2cErrCount := 0 } 0) := by
  rw [exec_i2cInit, addressOf_eq_setWidth, addressCheck_of_lt ha, ctxCheck_eq_none.2 hctx, gateCheck_eq_none.2 hgate, hfresh]
  rfl

/-- Settles O22: its checks pass, and `clearOperation` writes what the rule lists beside the five fields of its own. -/
theorem i2cInitSetsUpTransport : Obligations.I2cInitSetsUpTransport :=
  ⟨encodedF1_of_formOf rfl, i2cInit_rejectsAsTabled, fun _ _ => exec_i2cInit_of_fresh⟩

theorem i2cSetaddr_rejectsAsTabled (a : Byte) : RejectsAsTabled (.i2cSetaddr a) :=
  rejectsAsTabled_of_tableChecks (fun s => exec_i2cSetaddr s a) fun s => by
    cases hbusy : s.i2cBusy <;>
      simp [firstRaised_cons, tableChecks, addressCheck, idleCheck, Instr.wf, needsInit, isGated, ownRejection, hbusy]

theorem exec_i2cSetaddr_of_idle {s : State} {a : Byte} (ha : a.toNat < 128) (hctx : s.ctxOpen) (hinit : s.i2cInited = true)
    (hgate : s.gateOpen) (hidle : s.i2cBusy = false) :
    exec (.i2cSetaddr a) s = .next (State.respond { s with i2cAddr := a.setWidth 7 } 0) := by
  rw [exec_i2cSetaddr, addressOf_eq_setWidth, addressCheck_of_lt ha]
  exact guarded_pass ((firstRaised_of_ready hctx hinit hgate _).trans (by rw [idleCheck_eq_none.2 hidle]; rfl))

/-- Settles O23. -/
theorem i2cSetaddrChangesAddressOnly : Obligations.I2cSetaddrChangesAddressOnly :=
  ⟨encodedF1_of_formOf rfl, i2cSetaddr_rejectsAsTabled, fun _ _ => exec_i2cSetaddr_of_idle⟩

/-- A stop condition is driven exactly where one is owed. -/
theorem drive_stop_of_owesStop (s : State) :
    (if s.owesStop then s.drive [.stop] else s) =
      s.drive (if s.i2cPhase ≠ .idle ∧ s.i2cPhase ≠ .stop then [.stop] else []) := by
  have howes : s.owesStop = true ↔ s.i2cPhase ≠ .idle ∧ s.i2cPhase ≠ .stop := by simp [State.owesStop]
  by_cases hphase : s.i2cPhase ≠ .idle ∧ s.i2cPhase ≠ .stop
  · rw [if_pos (howes.2 hphase), if_pos hphase]
  · rw [if_neg (mt howes.1 hphase), if_neg hphase, State.drive, List.append_nil]

theorem i2cReset_rejectsAsTabled : RejectsAsTabled .i2cReset :=
  rejectsAsTabled_of_i2cPre exec_i2cReset (fun _ => rfl) rfl rfl (fun _ => rfl)

theorem exec_i2cReset_of_ready {s : State} (hctx : s.ctxOpen) (hinit : s.i2cInited = true) (hgate : s.gateOpen) :
    exec .i2cReset s = .next (State.respond (State.clearI2cRequest (State.clearOperation
      (s.drive (if s.i2cPhase ≠ .idle ∧ s.i2cPhase ≠ .stop then [.stop] else [])))) 0) := by
  rw [exec_i2cReset, drive_stop_of_owesStop]
  exact guarded_pass (firstRaised_of_ready hctx hinit hgate [])

/-- Settles O24: of the histories only the wire is touched, and only where a stop condition is owed. -/
theorem i2cResetReturnsToIdle : Obligations.I2cResetReturnsToIdle :=
  ⟨encodedF0_of_formOf rfl, i2cReset_rejectsAsTabled, fun _ hctx hinit hgate => by
    rw [exec_i2cReset_of_ready hctx hinit hgate]
    rfl⟩

/-! ### What an operation left (41_i2c_transport R132 to R134) -/

theorem i2cResult_rejectsAsTabled : RejectsAsTabled .i2cResult :=
  rejectsAsTabled_of_tableChecks exec_i2cResult fun s => by
    simp [firstRaised_cons, tableChecks, Instr.wf, needsInit, isGated, ownRejection]

/-- The answer's bit is 1 exactly where both flags are 0. -/
theorem zext32_succeeded (s : State) :
    zext32 (bit s.succeeded) = if s.i2cBusy = false ∧ s.i2cError = false then 1 else 0 := by
  rw [State.succeeded]
  cases s.i2cBusy <;> cases s.i2cError <;> rfl

/-- Settles O29. -/
theorem i2cResultTellsSuccess : Obligations.I2cResultTellsSuccess :=
  ⟨encodedF0_of_formOf rfl, i2cResult_rejectsAsTabled, fun s hctx hinit => by
    rw [exec_i2cResult, guarded_pass (firstRaised_of_inited hctx hinit []), zext32_succeeded]
    rfl⟩

/-- A command that reads byte `i` of a space, where its own check passes and the index exists. -/
theorem guarded_loadByte {s : State} {ok : Bool} {e : Status} {sp : Space} {i : Nat} (hctx : s.ctxOpen)
    (hinit : s.i2cInited = true) (hok : ok = true) (hroom : i < sp.capacity s.cfg) :
    guarded [ctxCheck s, initCheck s, checkThat ok e] s (loadByte sp i s fun b => .next (s.respond (zext32 b))) =
      .next (s.answer .ok (((s.space sp).read i).setWidth 32)) := by
  rw [guarded_pass (by rw [firstRaised_of_inited hctx hinit, hok]; rfl), loadByte_inside hroom]
  rfl

theorem i2cRxrd_rejectsAsTabled (x : Byte) : RejectsAsTabled (.i2cRxrd x) :=
  rejectsAsTabled_of_tableChecks (fun s => exec_i2cRxrd s x) fun s => by
    simp [firstRaised_cons, tableChecks, Instr.wf, needsInit, isGated, ownRejection, checkThat]

/-- Settles O30: what was received lies inside the buffer. -/
theorem i2cRxrdReadsReceivedByte : Obligations.I2cRxrdReadsReceivedByte :=
  ⟨encodedF1_of_formOf rfl, i2cRxrd_rejectsAsTabled, fun s x hctx hinit hreceived hcap => by
    rw [exec_i2cRxrd, guarded_loadByte hctx hinit (decide_eq_true hreceived) (sp := .rxbuf) (hreceived.trans_le hcap)]
    rfl⟩

theorem i2cErrrd_rejectsAsTabled (x : Byte) : RejectsAsTabled (.i2cErrrd x) :=
  rejectsAsTabled_of_tableChecks (fun s => exec_i2cErrrd s x) fun s => by
    simp [firstRaised_cons, tableChecks, Instr.wf, needsInit, isGated, ownRejection, checkThat]

/-- Settles O31: the remainder lies inside a ring of at least one entry. -/
theorem i2cErrrdReadsByAge : Obligations.I2cErrrdReadsByAge := by
  refine ⟨encodedF1_of_formOf rfl, i2cErrrd_rejectsAsTabled, fun s x hctx hinit hage hc => ?_⟩
  obtain ⟨-, -, ⟨hring, -⟩, -⟩ := hc
  have hroom : s.errIndex x.toNat < s.cfg.i2cErrlogLen := Nat.mod_lt _ hring
  rw [exec_i2cErrrd, guarded_loadByte hctx hinit (decide_eq_true hage) (sp := .errlog) hroom]
  rfl

end Sys2Proof.Machine
end

section
/-! Proofs of 41_i2c_transport: the commands that an outstanding operation answers otherwise (R124 to R127, R131). -/

namespace Sys2Proof.Machine

/-- What `Collide()` and its response write (41_i2c_transport R125). -/
theorem collide_respond (s : State) :
    s.collide.respond 0 = { s with i2cEv := .wcol, i2cEvData := 0, ipI2c := true, resps := s.resps ++ [⟨.ok, 0⟩] } := rfl

/-! ### I2C.PUSH (41_i2c_transport R124, R125) -/

theorem i2cPush_rejectsAsTabled (b : Byte) : RejectsAsTabled (.i2cPush b) :=
  rejectsAsTabled_of_tableChecks (fun s => exec_i2cPush s b) fun s => by
    by_cases hroom : s.i2cTxlen.toNat < s.cfg.i2cBufLen <;> cases hbusy : s.i2cBusy <;>
      simp [firstRaised_cons, tableChecks, Instr.wf, needsInit, isGated, ownRejection, hbusy, hroom, Nat.not_le.2, Nat.not_lt.1]

section
variable {s : State} (hctx : s.ctxOpen) (hinit : s.i2cInited = true) (hgate : s.gateOpen)
include hctx hinit hgate

theorem exec_i2cPush_of_busy (hbusy : s.i2cBusy = true) (b : Byte) : exec (.i2cPush b) s = .next (s.collide.respond 0) := by
  rw [exec_i2cPush, guarded_pass (by rw [firstRaised_of_ready hctx hinit hgate, hbusy]; rfl), if_pos hbusy]

theorem exec_i2cPush_of_idle (hidle : s.i2cBusy = false) (hroom : s.i2cTxlen.toNat < s.cfg.i2cBufLen) (b : Byte) :
    exec (.i2cPush b) s = .next (State.respond
      { s with i2cTxbuf := s.i2cTxbuf.write s.i2cTxlen.toNat b, i2cTxlen := s.i2cTxlen + 1 } 1) := by
  have hpass : firstRaised [ctxCheck s, initCheck s, gateCheck s,
      checkThat (s.i2cBusy || decide (s.i2cTxlen.toNat < s.cfg.i2cBufLen)) .state] = none := by
    rw [firstRaised_of_ready hctx hinit hgate, decide_eq_true hroom, Bool.or_true]
    rfl
  rw [exec_i2cPush, guarded_pass hpass, if_neg (ne_true_of_eq_false hidle), storeByte_inside hroom]
  rfl

end

/-- Settles O25: idle, the byte is written at the transmit length, which a canonical buffer reads back there and nowhere else. -/
theorem i2cPushAppendsOneByte : Obligations.I2cPushAppendsOneByte :=
  ⟨encodedF1_of_formOf rfl, i2cPush_rejectsAsTabled, fun _ b hctx hinit hgate =>
    ⟨fun hbusy => exec_i2cPush_of_busy hctx hinit hgate hbusy b,
      fun hidle hroom => ⟨_, exec_i2cPush_of_idle hctx hinit hgate hidle hroom b, fun hwf => Memory.read_write hwf _ b⟩⟩⟩

/-! ### I2C.STARTTX and I2C.STARTRX (41_i2c_transport R125 to R127) -/

theorem i2cStarttx_rejectsAsTabled : RejectsAsTabled .i2cStarttx :=
  rejectsAsTabled_of_i2cPre exec_i2cStarttx (fun _ => rfl) rfl rfl (fun _ => rfl)

theorem exec_i2cStarttx_of_idle {s : State} (hctx : s.ctxOpen) (hinit : s.i2cInited = true) (hgate : s.gateOpen)
    (hidle : s.i2cBusy = false) : exec .i2cStarttx s = .next ((s.startOperation .transmit s.i2cTxlen).respond 1) := by
  rw [exec_i2cStarttx, guarded_pass (firstRaised_of_ready hctx hinit hgate []), if_neg (ne_true_of_eq_false hidle)]

/-- Settles O26, busy and idle. -/
theorem i2cStarttxBeginsTransmit : Obligations.I2cStarttxBeginsTransmit :=
  ⟨encodedF0_of_formOf rfl, i2cStarttx_rejectsAsTabled, fun s hctx hinit hgate =>
    ⟨fun hbusy => by
      rw [exec_i2cStarttx, guarded_pass (firstRaised_of_ready hctx hinit hgate []), if_pos hbusy, collide_respond],
      exec_i2cStarttx_of_idle hctx hinit hgate⟩⟩

theorem i2cStartrx_rejectsAsTabled (n : Byte) : RejectsAsTabled (.i2cStartrx n) :=
  rejectsAsTabled_of_tableChecks (fun s => exec_i2cStartrx s n) fun s => by
    simp [firstRaised_cons, tableChecks, countCheck, Instr.wf, needsInit, isGated, ownRejection]

/-- Settles O27, busy and idle; the count passes the operand's check. -/
theorem i2cStartrxBeginsReceive : Obligations.I2cStartrxBeginsReceive := by
  refine ⟨encodedF1_of_formOf rfl, i2cStartrx_rejectsAsTabled, fun s n hsome hfits hctx hinit hgate => ?_⟩
  rw [exec_i2cStartrx, countCheck_of_le hsome hfits,
    guarded_pass ((firstRaised_none _).trans (firstRaised_of_ready hctx hinit hgate []))]
  exact ⟨fun hbusy => by rw [if_pos hbusy, collide_respond], fun hidle => by rw [if_neg (ne_true_of_eq_false hidle)]; rfl⟩

/-! ### I2C.WAIT (41_i2c_transport R131) -/

theorem i2cWait_rejectsAsTabled : RejectsAsTabled .i2cWait :=
  rejectsAsTabled_of_i2cPre exec_i2cWait (fun _ => rfl) rfl rfl (fun _ => rfl)

section
variable {s : State} (hctx : s.ctxOpen) (hinit : s.i2cInited = true) (hgate : s.gateOpen)
include hctx hinit hgate

theorem exec_i2cWait_of_idle (hidle : s.i2cBusy = false) : exec .i2cWait s = .next (s.respond 0) := by
  rw [exec_i2cWait, guarded_pass (firstRaised_of_ready hctx hinit hgate []), if_neg (ne_true_of_eq_false hidle)]

theorem exec_i2cWait_of_busy (hbusy : s.i2cBusy = true) : exec .i2cWait s = .next (s.countWait.respond 1) := by
  rw [exec_i2cWait, guarded_pass (firstRaised_of_ready hctx hinit hgate []), if_pos hbusy]

end

/-- Settles O28: idle, and busy below the bound and at it. -/
theorem i2cWaitCountsAndTimesOut : Obligations.I2cWaitCountsAndTimesOut := by
  refine ⟨encodedF0_of_formOf rfl, i2cWait_rejectsAsTabled, fun s hctx hinit hgate =>
    ⟨exec_i2cWait_of_idle hctx hinit hgate, fun hbusy hbelow => ?_, fun hbusy hbound => ?_⟩⟩
  · rw [exec_i2cWait_of_busy hctx hinit hgate hbusy, State.countWait, if_neg hbelow]
    rfl
  · rw [exec_i2cWait_of_busy hctx hinit hgate hbusy, State.countWait, if_pos hbound]
    rfl

end Sys2Proof.Machine
end

section
/-! Proofs of 41_i2c_transport: the commands of `TRANSMIT` up to its wait loop (R136). -/

namespace Sys2Proof.Machine

/-- A command that answers `OK` lets the next one be issued. -/
theorem issueAll_of_respond {i : Instr} {s u : State} {v : Word} (h : exec i s = .next (u.respond v)) (is : List Instr) :
    issueAll (i :: is) s = issueAll is (u.respond v) := by
  have hok : (u.respond v).lastOk = true := by simp [State.lastOk]
  simp only [issueAll, h, hok, if_true]

/-- The state with other contents in the transmit buffer and another list of responses. -/
def State.withTransmit (s : State) (buf : Memory) (len : Byte) (rs : List Response) : State :=
  { s with i2cTxbuf := buf, i2cTxlen := len, resps := rs }

/-- `buf` holds `bs` from index `lo` on, and below it what `old` holds. -/
def HoldsFrom (old : Memory) (lo : Nat) (bs : List Byte) (buf : Memory) : Prop :=
  (∀ j < lo, buf.read j = old.read j) ∧ ∀ (j : Nat) (h : j < bs.length), buf.read (lo + j) = bs[j]

/-- The first byte written at `lo`, the others behind it. -/
theorem holdsFrom_cons {old buf : Memory} {lo : Nat} {b : Byte} {bs : List Byte} (hwf : old.wf = true)
    (h : HoldsFrom (old.write lo b) (lo + 1) bs buf) : HoldsFrom old lo (b :: bs) buf := by
  obtain ⟨hbelow, hbytes⟩ := h
  refine ⟨fun j hj => ?_, fun j hj => ?_⟩
  · rw [hbelow j (by omega), Memory.read_write hwf, if_neg (by omega)]
  · cases j with
    | zero => rw [Nat.add_zero, hbelow lo (by omega), Memory.read_write hwf, if_pos rfl, List.getElem_cons_zero]
    | succ j => rw [← Nat.add_assoc, Nat.add_right_comm, hbytes j (by simpa using hj), List.getElem_cons_succ]

theorem issueAll_push {s : State} (hctx : s.ctxOpen) (hinit : s.i2cInited = true) (hgate : s.gateOpen)
    (hidle : s.i2cBusy = false) (hroom : s.i2cTxlen.toNat < s.cfg.i2cBufLen) (b : Byte) (is : List Instr) :
    issueAll (.i2cPush b :: is) s = issueAll is
      (s.withTransmit (s.i2cTxbuf.write s.i2cTxlen.toNat b) (s.i2cTxlen + 1) (s.resps ++ [⟨.ok, 1⟩])) :=
  issueAll_of_respond (exec_i2cPush_of_idle hctx hinit hgate hidle hroom b) is

/-- The pushes put their bytes behind those of the buffer, in order, and the commands after them go on from there. -/
theorem issueAll_pushes {s : State} (hcap : s.cfg.i2cBufLen ≤ 255) (hctx : s.ctxOpen) (hinit : s.i2cInited = true)
    (hgate : s.gateOpen) (hidle : s.i2cBusy = false) (hwf : s.i2cTxbuf.wf = true) (bs : List Byte) (is : List Instr)
    (hroom : s.i2cTxlen.toNat + bs.length ≤ s.cfg.i2cBufLen) :
    ∃ (buf : Memory) (len : Byte) (rs : List Response),
      issueAll (bs.map .i2cPush ++ is) s = issueAll is (s.withTransmit buf len rs) ∧
      len.toNat = s.i2cTxlen.toNat + bs.length ∧ HoldsFrom s.i2cTxbuf s.i2cTxlen.toNat bs buf := by
  induction bs generalizing s with
  | nil => exact ⟨s.i2cTxbuf, s.i2cTxlen, s.resps, rfl, rfl, fun _ _ => rfl, nofun⟩
  | cons b bs ih =>
    rw [List.length_cons] at hroom
    have hnext : (s.i2cTxlen + 1).toNat = s.i2cTxlen.toNat + 1 := by bv_omega
    have hroom' : (s.i2cTxlen + 1).toNat + bs.length ≤ s.cfg.i2cBufLen := by omega
    obtain ⟨buf, len, rs, hissue, hlen, hholds⟩ :=
      ih (s := s.withTransmit (s.i2cTxbuf.write s.i2cTxlen.toNat b) (s.i2cTxlen + 1) (s.resps ++ [⟨.ok, 1⟩]))
        hcap hctx hinit hgate hidle (Memory.wf_write hwf _ b) hroom'
    simp only [State.withTransmit, hnext] at hlen hholds
    exact ⟨buf, len, rs, (issueAll_push hctx hinit hgate hidle (by omega) b _).trans hissue,
      by rw [hlen, List.length_cons, Nat.add_assoc, Nat.add_comm 1], holdsFrom_cons hwf hholds⟩

/-- An idle transport after `I2C.SETADDR a` and `I2C.RESET`: addressed, both flags clear, its buffers empty. -/
def State.clearedFor (s : State) (a : Addr7) : State :=
  { s with
    i2cAddr := a, i2cBusy := false, i2cError := false, i2cPhase := .idle, i2cDir := .transmit, i2cLen := 0, i2cIdx := 0,
    i2cToCnt := 0, i2cTxlen := 0, i2cRxlen := 0, ipI2c := false, i2cEv := .none, i2cEvData := 0,
    resps := s.resps ++ [⟨.ok, 0⟩] ++ [⟨.ok, 0⟩] }

theorem State.clearedFor_txlen (s : State) (a : Addr7) : (s.clearedFor a).i2cTxlen.toNat = 0 := rfl

/-- On an idle controller no stop condition is owed, so the wire stays as it is. -/
theorem issueAll_setaddr_reset {s : State} {a : Byte} (ha : a.toNat < 128) (hctx : s.ctxOpen) (hinit : s.i2cInited = true)
    (hgate : s.gateOpen) (hidle : s.i2cBusy = false) (hphase : s.i2cPhase = .idle) (is : List Instr) :
    issueAll (.i2cSetaddr a :: .i2cReset :: is) s = issueAll is (s.clearedFor (a.setWidth 7)) := by
  have hreset := exec_i2cReset_of_ready (s := State.respond { s with i2cAddr := a.setWidth 7 } 0) hctx hinit hgate
  rw [if_neg (fun howes => howes.1 hphase), State.drive, List.append_nil] at hreset
  rw [issueAll_of_respond (exec_i2cSetaddr_of_idle ha hctx hinit hgate hidle), issueAll_of_respond hreset]
  rfl

theorem issueAll_starttx {s : State} (hctx : s.ctxOpen) (hinit : s.i2cInited = true) (hgate : s.gateOpen)
    (hidle : s.i2cBusy = false) :
    issueAll [.i2cStarttx] s = .next ((s.startOperation .transmit s.i2cTxlen).respond 1) :=
  issueAll_of_respond (exec_i2cStarttx_of_idle hctx hinit hgate hidle) []

/-- The state in which the wait loop of `TRANSMIT` begins. -/
def State.transmitting (s : State) (a : Addr7) (buf : Memory) (len : Byte) (rs : List Response) : State :=
  { s.clearedFor a with
    i2cTxbuf := buf, i2cTxlen := len, i2cBusy := true, i2cLen := len, i2cPhase := .addr,
    wire := s.wire ++ [.start, .ad a .transmit], resps := rs ++ [⟨.ok, 1⟩] }

/-- Settles O43: the address, the reset, the pushes from index 0 on, the start; each answers `OK` and lets the next be issued. -/
theorem transmitPrefixStartsOperation : Obligations.TransmitPrefixStartsOperation := by
  rintro s a bs ha hlen ⟨-, ⟨-, hcap⟩, -⟩ hctx hinit hgate hidle hphase hwf
  have hbegun := issueAll_setaddr_reset ha hctx hinit hgate hidle hphase (bs.map .i2cPush ++ [.i2cStarttx])
  obtain ⟨buf, len, rs, hpushes, hlen', -, hbytes⟩ :=
    issueAll_pushes (s := s.clearedFor (a.setWidth 7)) hcap hctx hinit hgate rfl hwf bs [.i2cStarttx]
      (by rwa [State.clearedFor_txlen, Nat.zero_add])
  rw [State.clearedFor_txlen, Nat.zero_add] at hlen'
  simp only [State.clearedFor_txlen, Nat.zero_add] at hbytes
  have hstart : issueAll [.i2cStarttx] ((s.clearedFor (a.setWidth 7)).withTransmit buf len rs) =
      .next (s.transmitting (a.setWidth 7) buf len rs) := issueAll_starttx hctx hinit hgate rfl
  have hissue : issueAll (transmitStart a bs) s = .next (s.transmitting (a.setWidth 7) buf len rs) :=
    (hbegun.trans hpushes).trans hstart
  exact ⟨_, hissue, rfl, rfl, rfl, rfl, rfl, hlen', rfl, rfl, hbytes, rfl, rfl⟩

end Sys2Proof.Machine
end

section
/-! Proofs of 41_i2c_transport: the wait loop ends an outstanding operation (R140). -/

namespace Sys2Proof.Machine

/-! ### What a step of the wait loop leaves -/

/-- The HOST waits: it may use the transport, and what it still presents is `I2C.WAIT`. -/
structure State.Waiting (s : State) : Prop where
  inv : s.Inv
  hold : s.dlyActive = false
  inited : s.i2cInited = true
  ctx : s.ctxOpen
  gate : s.gateOpen
  labels : ∀ l ∈ s.agenda, l.isCmd = true → l = encode .i2cWait

/-- What decides whether a waiting HOST may go on waiting is the same. -/
structure SameContext (s t : State) : Prop where
  cfg : t.cfg = s.cfg
  hold : t.dlyActive = s.dlyActive
  inited : t.i2cInited = s.i2cInited
  running : t.schRunning = s.schRunning
  inPoll : t.schInPoll = s.schInPoll
  slot : t.schSlot = s.schSlot
  held : t.gateHeld = s.gateHeld
  owner : t.gateOwner = s.gateOwner
  agenda : t.agenda = s.agenda

/-- Beside that, the operation's flags, its turns, the history of faults and the output events are the same. -/
structure SameProgress (s t : State) : Prop extends SameContext s t where
  busy : t.i2cBusy = s.i2cBusy
  turns : t.i2cToCnt = s.i2cToCnt
  error : t.i2cError = s.i2cError
  errlog : t.i2cErrlog = s.i2cErrlog
  errHead : t.i2cErrHead = s.i2cErrHead
  trace : t.trace = s.trace

/-- The operation has ended with the callback `c` as its one output event; the newest history entry is the number of its fault. -/
structure State.EndedWith (tr : List TraceEvent) (c : Callback) (s : State) : Prop where
  busy : s.i2cBusy = false
  trace : s.trace = tr ++ [.cb c]
  fault : ∀ (k : FaultKind) (n : Byte), c = .fault k → faultNumber k n →
    s.i2cError = true ∧ s.i2cErrlog.read (s.errIndex 0) = n

/-- The operation is outstanding, with enough turns to come to reach the bound. -/
structure State.Outstanding (tr : List TraceEvent) (s : State) : Prop where
  busy : s.i2cBusy = true
  trace : s.trace = tr
  turns : s.cfg.i2cTimeoutCycles ≤ s.i2cToCnt.toNat + waitsIn s.agenda

theorem SameContext.refl (s : State) : SameContext s s := ⟨rfl, rfl, rfl, rfl, rfl, rfl, rfl, rfl, rfl⟩

theorem SameProgress.refl (s : State) : SameProgress s s := ⟨.refl s, rfl, rfl, rfl, rfl, rfl, rfl⟩

theorem SameContext.trans {s t u : State} (h : SameContext s t) (h' : SameContext t u) : SameContext s u :=
  ⟨h'.cfg.trans h.cfg, h'.hold.trans h.hold, h'.inited.trans h.inited, h'.running.trans h.running, h'.inPoll.trans h.inPoll,
    h'.slot.trans h.slot, h'.held.trans h.held, h'.owner.trans h.owner, h'.agenda.trans h.agenda⟩

theorem SameProgress.trans {s t u : State} (h : SameProgress s t) (h' : SameProgress t u) : SameProgress s u :=
  ⟨h.toSameContext.trans h'.toSameContext, h'.busy.trans h.busy, h'.turns.trans h.turns, h'.error.trans h.error,
    h'.errlog.trans h.errlog, h'.errHead.trans h.errHead, h'.trace.trans h.trace⟩

theorem State.Waiting.of_same {s t : State} (h : s.Waiting) (hinv : t.Inv) (hsame : SameContext s t) : t.Waiting where
  inv := hinv
  hold := hsame.hold.trans h.hold
  inited := hsame.inited.trans h.inited
  ctx := by
    rw [State.ctxOpen, hsame.running, hsame.inPoll]
    exact h.ctx
  gate := by
    rw [State.gateOpen, State.requester, hsame.held, hsame.owner, hsame.inPoll, hsame.slot]
    exact h.gate
  labels := by
    rw [hsame.agenda]
    exact h.labels

/-- A label taken off the agenda leaves the HOST waiting. -/
theorem State.Waiting.with_rest {s : State} {l : Label} {rest : List Label} (h : s.Waiting) (hagenda : s.agenda = l :: rest) :
    State.Waiting { s with agenda := rest } :=
  { h with
    inv := h.inv.with_agenda rest
    labels := fun x hx => h.labels x (by rw [hagenda]; exact List.mem_cons_of_mem l hx) }

theorem State.EndedWith.of_same {tr : List TraceEvent} {c : Callback} {s t : State} (h : s.EndedWith tr c)
    (hsame : SameProgress s t) : t.EndedWith tr c where
  busy := hsame.busy.trans h.busy
  trace := hsame.trace.trans h.trace
  fault := by
    rw [State.errIndex, hsame.error, hsame.errlog, hsame.errHead, hsame.cfg]
    exact h.fault

theorem State.Outstanding.of_same {tr : List TraceEvent} {s t : State} (h : s.Outstanding tr) (hsame : SameProgress s t) :
    t.Outstanding tr where
  busy := hsame.busy.trans h.busy
  trace := hsame.trace.trans h.trace
  turns := by
    rw [hsame.cfg, hsame.turns, hsame.agenda]
    exact h.turns

/-! ### The environment moves nothing of the wait loop (40_timebase R108, R110, 42_i2c_bus_fsm R151, 43_scheduler_gate R183) -/

theorem tickStep_sameProgress (s : State) : SameProgress s (tickStep s) := by
  rw [tickStep_eq]
  exact { SameProgress.refl s with }

/-- With no hold open none ends. -/
theorem usTickStep_sameProgress {s : State} (hold : s.dlyActive = false) : SameProgress s (usTickStep s) := by
  obtain ⟨hopen, -⟩ | ⟨-, he⟩ := endHold_cases { s with frCount := s.frCount + 1 }
  · exact absurd (hold.symm.trans hopen) Bool.false_ne_true
  · rw [usTickStep, he]
    exact { SameProgress.refl s with }

/-- In an open context no poll begins. -/
theorem pollStep_of_ctxOpen {s : State} (hctx : s.ctxOpen) : pollStep s = s := by
  unfold pollStep
  split
  · next hopen => exact absurd (by simpa using hopen) hctx
  · rfl

theorem busInstr_sameProgress {i : Instr} {s t : State} (hi : i.isBus = true) (h : exec i s = .next t) : SameProgress s t := by
  obtain rfl | ⟨-, -, e, d, w, rfl, -⟩ := busInstr_next hi h
  · exact .refl t
  · exact { SameProgress.refl s with }

/-! ### The handler moves an operation on or ends it (42_i2c_bus_fsm R160, R161) -/

theorem faultNumber_iff {k : FaultKind} {n : Byte} : faultNumber k n ↔ n = k.code := by
  cases k <;> simp [faultNumber, FaultKind.code]

/-- The newest entry of the history is the code of the fault. -/
theorem faultCallback_endedWith {k : FaultKind} {s t : State} (hinv : s.Inv)
    (h : faultCallback k s.clearI2cRequest = .next t) : SameContext s t ∧ t.EndedWith s.trace (.fault k) := by
  obtain ⟨-, -, ⟨-, hcap⟩, -⟩ := hinv.cfg
  have hnewest : s.errAdvance.errIndex 0 = s.i2cErrHead.toNat := errAdvance_errIndex_zero hcap hinv.transport.errHead
  obtain ⟨-, rfl⟩ := faultCallback_next h
  refine ⟨{ SameContext.refl s with }, rfl, rfl, fun k' n hk hn => ⟨rfl, ?_⟩⟩
  cases hk
  rw [faultNumber_iff] at hn
  show (s.i2cErrlog.write s.i2cErrHead.toNat k.code).read (s.errAdvance.errIndex 0) = n
  rw [hnewest, Memory.read_write hinv.transport.errlog.1, if_pos rfl, hn]

/-- Whatever event was latched, the handler goes on with the operation or ends it with one callback. -/
theorem i2cIsr_progress {s t : State} (hinv : s.Inv) (h : i2cArm s.i2cEv s.i2cEvData s.clearI2cRequest = .next t) :
    SameProgress s t ∨ (SameContext s t ∧ ∃ c, t.EndedWith s.trace c) := by
  have hclear : SameProgress s s.clearI2cRequest := { SameProgress.refl s with }
  have hfault {k : FaultKind} (hk : faultCallback k s.clearI2cRequest = .next t) :
      SameContext s t ∧ ∃ c, t.EndedWith s.trace c := (faultCallback_endedWith hinv hk).imp id fun he => ⟨_, he⟩
  obtain ⟨-, -, harm⟩ | ⟨-, -, harm⟩ | ⟨-, -, harm⟩ | ⟨-, -, harm⟩ | ⟨-, -, harm⟩ | ⟨-, -, harm⟩ | ⟨-, -, harm⟩ |
    ⟨-, -, harm⟩ | harm := i2cArm_cases s.i2cEv s.i2cEvData s.clearI2cRequest
  all_goals rw [harm] at h
  · exact .inr (hfault h)
  · exact .inr (hfault h)
  · left
    obtain ⟨-, rfl⟩ | ⟨-, -, rfl⟩ | ⟨-, -, rfl⟩ := addressAcked_next h <;> exact { hclear with }
  · left
    obtain ⟨-, rfl⟩ | ⟨-, -, rfl⟩ := byteAcked_next h <;> exact { hclear with }
  · exact .inr (hfault h)
  · exact .inr (hfault h)
  · left
    obtain ⟨-, ⟨-, rfl⟩ | ⟨-, rfl⟩⟩ := byteReceived_next h <;> exact { hclear with }
  · cases h
    exact .inr ⟨{ SameContext.refl s with }, .done, rfl, rfl, nofun⟩
  · cases h
    exact .inl hclear

/-! ### A turn of the loop (41_i2c_transport R131) -/

/-- A turn counts, and whether it posts the timeout or not nothing else of the loop moves. -/
theorem countWait_respond_counts (s : State) :
    SameContext s (s.countWait.respond 1) ∧ (s.countWait.respond 1).i2cBusy = s.i2cBusy ∧
    (s.countWait.respond 1).trace = s.trace ∧ (s.countWait.respond 1).i2cToCnt = s.i2cToCnt + 1 := by
  unfold State.countWait
  simp only
  split <;> exact ⟨{ SameContext.refl s with }, rfl, rfl, rfl⟩

/-- A turn uses up one of the packets to come and is counted below the bound, so none is lost. -/
theorem State.Outstanding.turn {tr : List TraceEvent} {s : State} {rest : List Label} (h : s.Outstanding tr)
    (hinv : s.Inv) (hquiet : s.ipI2c = false) (hagenda : s.agenda = encode .i2cWait :: rest) :
    State.Outstanding tr (State.respond (State.countWait { s with agenda := rest }) 1) := by
  obtain ⟨hsame, hbusy, htrace, hcount⟩ := countWait_respond_counts { s with agenda := rest }
  obtain ⟨-, -, -, ⟨-, hmax⟩, -⟩ := hinv.cfg
  have hlt := hinv.toCnt_lt hquiet h.busy
  have hturn : (s.i2cToCnt + 1).toNat = s.i2cToCnt.toNat + 1 := by bv_omega
  have hwaits : waitsIn s.agenda = waitsIn rest + 1 := by rw [hagenda, waitsIn, waitsIn, List.count_cons_self]
  have hturns := h.turns
  refine ⟨hbusy.trans h.busy, htrace.trans h.trace, ?_⟩
  rw [hsame.cfg, hcount, hsame.agenda]
  show s.cfg.i2cTimeoutCycles ≤ (s.i2cToCnt + 1).toNat + waitsIn rest
  omega

/-- What a label of a waiting HOST's agenda does: `I2C.WAIT`, or nothing of the loop. -/
theorem State.Waiting.perform_cases {l : Label} {s t : State} (h : s.Waiting) (hl : l.isCmd = true → l = encode .i2cWait)
    (ht : perform l s = .next t) :
    (l = encode .i2cWait ∧ exec .i2cWait s = .next t) ∨ (l.isCmd = false ∧ SameProgress s t) := by
  obtain ⟨p, i, rfl, hd, hx⟩ | ⟨p, e, rfl, hd, -⟩ | ⟨rfl, rfl⟩ | ⟨rfl, rfl⟩ | ⟨rfl, rfl⟩ | ⟨r, i, rfl, hd, hx⟩ |
    ⟨r, i, u, rfl, hd, hx, rfl⟩ := perform_next ht
  · have hwait := hl rfl
    rw [hwait, decodeInvertsEncode] at hd
    cases hd
    exact .inl ⟨hwait, hx⟩
  · rw [hl rfl, decodeInvertsEncode] at hd
    cases hd
  · exact .inr ⟨rfl, by rw [pollStep_of_ctxOpen h.ctx]; exact .refl s⟩
  · exact .inr ⟨rfl, tickStep_sameProgress s⟩
  · exact .inr ⟨rfl, usTickStep_sameProgress h.hold⟩
  · exact .inr ⟨rfl, busInstr_sameProgress (isBus_of_decode hd rfl) hx⟩
  · exact .inr ⟨rfl, (busInstr_sameProgress (isBus_of_decode hd rfl) hx).trans (tickStep_sameProgress u)⟩

/-! ### The loop (41_i2c_transport R140) -/

/-- The operation is outstanding with enough turns to come, or has ended with one callback. -/
def State.OnTheWay (tr : List TraceEvent) (s : State) : Prop := s.Outstanding tr ∨ ∃ c, s.EndedWith tr c

theorem State.OnTheWay.of_same {tr : List TraceEvent} {s t : State} (h : s.OnTheWay tr) (hsame : SameProgress s t) :
    t.OnTheWay tr :=
  h.imp (·.of_same hsame) fun ⟨c, he⟩ => ⟨c, he.of_same hsame⟩

/-- Taking a label of another agent than the HOST off the agenda takes no turn from it. -/
theorem State.OnTheWay.with_rest {tr : List TraceEvent} {s : State} {l : Label} {rest : List Label} (h : s.OnTheWay tr)
    (hagenda : s.agenda = l :: rest) (hl : l.isCmd = false) : State.OnTheWay tr { s with agenda := rest } := by
  have hother : l ≠ encode .i2cWait := by
    rintro rfl
    cases hl
  have hwaits : waitsIn s.agenda = waitsIn rest := by rw [hagenda, waitsIn, waitsIn, List.count_cons_of_ne hother]
  exact h.imp (fun ho => { ho with turns := hwaits ▸ ho.turns }) fun ⟨c, he⟩ => ⟨c, { he with }⟩

/-- What the next label does keeps the loop on its way. -/
theorem State.Waiting.label {tr : List TraceEvent} {s t : State} {l : Label} {rest : List Label} (h : s.Waiting)
    (hway : s.OnTheWay tr) (hquiet : s.ipI2c = false) (hagenda : s.agenda = l :: rest)
    (ht : perform l { s with agenda := rest } = .next t) :
    SameContext { s with agenda := rest } t ∧ t.OnTheWay tr := by
  have hrest := h.with_rest hagenda
  obtain ⟨rfl, hx⟩ | ⟨hl, hsame⟩ := hrest.perform_cases (h.labels l (by simp [hagenda])) ht
  · obtain ho | ⟨c, he⟩ := hway
    · rw [exec_i2cWait_of_busy hrest.ctx hrest.inited hrest.gate ho.busy] at hx
      cases hx
      exact ⟨(countWait_respond_counts _).1, .inl (ho.turn h.inv hquiet hagenda)⟩
    · rw [exec_i2cWait_of_idle hrest.ctx hrest.inited hrest.gate he.busy] at hx
      cases hx
      exact ⟨{ SameContext.refl _ with }, .inr ⟨c, { he with }⟩⟩
  · exact ⟨hsame.toSameContext, (hway.with_rest hagenda hl).of_same hsame⟩

/-- Every step keeps the HOST waiting and the loop on its way. -/
theorem State.Waiting.step {tr : List TraceEvent} {s t : State} (h : s.Waiting) (hway : s.OnTheWay tr)
    (ht : Machine.step s = .next t) : t.Waiting ∧ t.OnTheWay tr := by
  have hinv := invariantKeptByEveryStep s t h.inv ht
  obtain ⟨-, he⟩ | ⟨-, hpend, he⟩ | ⟨-, hquiet, l, rest, hl, he⟩ | ⟨-, -, -, he⟩ := step_cases s
  all_goals rw [he] at ht
  · cases ht
    have hsame : SameProgress s (tickIsr s) := { SameProgress.refl s with }
    exact ⟨h.of_same hinv hsame.toSameContext, hway.of_same hsame⟩
  · obtain hsame | ⟨hsame, hended⟩ := i2cIsr_progress h.inv ht
    · exact ⟨h.of_same hinv hsame.toSameContext, hway.of_same hsame⟩
    · obtain ho | ⟨c, hidle⟩ := hway
      · exact ⟨h.of_same hinv hsame, .inr (ho.trace ▸ hended)⟩
      · exact absurd (h.inv.quiet_of_idle hidle.busy) (by simp [hpend])
  · have hagenda := (nextLabel_some hl).1 h.hold
    obtain ⟨hsame, hway'⟩ := h.label hway hquiet hagenda ht
    exact ⟨(h.with_rest hagenda).of_same hinv hsame, hway'⟩
  · cases ht
    exact ⟨h, hway⟩

theorem State.Waiting.run {tr : List TraceEvent} {n : Nat} {s t : State} (h : s.Waiting) (hway : s.OnTheWay tr)
    (hrun : core.run n s = .next t) : t.Waiting ∧ t.OnTheWay tr := by
  induction n generalizing s with
  | zero => exact run_zero hrun ▸ ⟨h, hway⟩
  | succ n ih =>
    obtain ⟨u, hstep, hrest⟩ := run_succ hrun
    obtain ⟨h', hway'⟩ := h.step hway hstep
    exact ih h' hway' hrest

/-- With no turn to come the bound is reached, and then the timeout is pending: a quiet controller is done. -/
theorem State.Outstanding.not_quiet {tr : List TraceEvent} {s : State} (h : s.Outstanding tr) (hinv : s.Inv)
    (hagenda : s.agenda = []) : ¬s.quiet := by
  rintro ⟨-, hquiet⟩
  have hlt := hinv.toCnt_lt hquiet h.busy
  have hturns := h.turns
  rw [hagenda, waitsIn, List.count_nil] at hturns
  omega

/-- Settles O41: every step keeps the operation on its way to the bound or ended, and at the end of the agenda only the latter is
left. -/
theorem waitLoopEndsOperation : Obligations.WaitLoopEndsOperation := by
  intro s t n hinv hold hctx hgate hbusy hlabels hturns hrun hagenda hquiet
  have hwaiting : s.Waiting := ⟨hinv, hold, hinv.transport.busyInited hbusy, hctx, hgate, hlabels⟩
  obtain ⟨h, ho | ⟨c, he⟩⟩ := hwaiting.run (.inl ⟨hbusy, rfl, hturns⟩) hrun
  · exact absurd hquiet (ho.not_quiet h.inv hagenda)
  · exact ⟨he.busy, c, he.trace, he.fault⟩

end Sys2Proof.Machine
end

section
/-! Proofs of 42_i2c_bus_fsm, the layer: an admitted bus response, the arm that an event selects in a phase, and what a fitting
event can select (R151, R152). -/

namespace Sys2Proof.Machine

/-! ### Bus responses (42_i2c_bus_fsm R151) -/

theorem State.awaitsAck_iff {s : State} : s.awaitsAck = true ↔ s.i2cPhase = .addr ∨ s.i2cPhase = .tx := by
  simp [State.awaitsAck]

/-- A response that fits, with no request pending, latches its event. -/
theorem busStep_admitted {fits : Bool} {s : State} (hfits : fits = true) (hquiet : s.quiet) (e : Event) (d : Byte)
    (w : List WireSym) : busStep fits e d w s = .next ((s.postI2c e d).drive w) := by
  obtain ⟨hTick, hI2c⟩ := hquiet
  simp [busStep, hfits, hTick, hI2c]

/-- A response that does not fit, or that comes while a request is pending, does not occur. -/
theorem busStep_unfit {fits : Bool} {s : State} (h : ¬s.quiet ∨ fits ≠ true) (e : Event) (d : Byte) (w : List WireSym) :
    busStep fits e d w s = .next s := by
  refine if_neg fun hall => ?_
  simp only [Bool.and_eq_true, Bool.not_eq_true'] at hall
  obtain ⟨⟨hfits, hTick⟩, hI2c⟩ := hall
  exact h.elim (· ⟨hTick, hI2c⟩) (· hfits)

/-! ### The arms of the handler (42_i2c_bus_fsm R152) -/

section
variable {s : State} (d : Byte)

theorem i2cArm_wcol (hp : s.i2cPhase ≠ .idle) : i2cArm .wcol d s = faultCallback .wcol s := by
  cases h : s.i2cPhase with
  | idle => exact absurd h hp
  | addr | tx | rx | stop => simp only [i2cArm, h]

theorem i2cArm_timeout (hp : s.i2cPhase ≠ .idle) : i2cArm .timeout d s = faultCallback .timeout s := by
  cases h : s.i2cPhase with
  | idle => exact absurd h hp
  | addr | tx | rx | stop => simp only [i2cArm, h]

theorem i2cArm_ack_addr (hp : s.i2cPhase = .addr) : i2cArm .ack d s = addressAcked s := by simp only [i2cArm, hp]

theorem i2cArm_ack_tx (hp : s.i2cPhase = .tx) : i2cArm .ack d s = byteAcked s := by simp only [i2cArm, hp]

theorem i2cArm_nack_addr (hp : s.i2cPhase = .addr) : i2cArm .nack d s = faultCallback .anack s := by simp only [i2cArm, hp]

theorem i2cArm_nack_tx (hp : s.i2cPhase = .tx) : i2cArm .nack d s = faultCallback .dnack s := by simp only [i2cArm, hp]

theorem i2cArm_data_rx (hp : s.i2cPhase = .rx) : i2cArm .data d s = byteReceived d s := by simp only [i2cArm, hp]

theorem i2cArm_stopped_stop (hp : s.i2cPhase = .stop) : i2cArm .stopped d s = .next (doneCallback s) := by
  simp only [i2cArm, hp]

/-- An event that the phase admits selects an arm that does something (42_i2c_bus_fsm R163). -/
theorem i2cArm_of_fits {e : Event} (hfits : eventFits s.i2cPhase e) :
    (s.i2cPhase ≠ .idle ∧ ∃ k, i2cArm e d s = faultCallback k s) ∨
    (s.i2cPhase = .addr ∧ e = .ack ∧ i2cArm e d s = addressAcked s) ∨
    (s.i2cPhase = .tx ∧ e = .ack ∧ i2cArm e d s = byteAcked s) ∨
    (s.i2cPhase = .rx ∧ e = .data ∧ i2cArm e d s = byteReceived d s) ∨
    (s.i2cPhase = .stop ∧ e = .stopped ∧ i2cArm e d s = .next (doneCallback s)) := by
  cases e with
  | none => exact hfits.elim
  | ack =>
    obtain hp | hp := hfits
    · exact .inr (.inl ⟨hp, rfl, i2cArm_ack_addr d hp⟩)
    · exact .inr (.inr (.inl ⟨hp, rfl, i2cArm_ack_tx d hp⟩))
  | nack =>
    obtain hp | hp := hfits
    · exact .inl ⟨by simp [hp], _, i2cArm_nack_addr d hp⟩
    · exact .inl ⟨by simp [hp], _, i2cArm_nack_tx d hp⟩
  | data => exact .inr (.inr (.inr (.inl ⟨hfits, rfl, i2cArm_data_rx d hfits⟩)))
  | stopped => exact .inr (.inr (.inr (.inr ⟨hfits, rfl, i2cArm_stopped_stop d hfits⟩)))
  | wcol => exact .inl ⟨hfits, _, i2cArm_wcol d hfits⟩
  | timeout => exact .inl ⟨hfits, _, i2cArm_timeout d hfits⟩

end

end Sys2Proof.Machine
end

section
/-! Proofs of 42_i2c_bus_fsm: the wire history stays in the grammar (R164). -/

namespace Sys2Proof.Machine

/-! ### Reading the wire in the grammar (42_i2c_bus_fsm R164) -/

/-- No symbol leads back from where the history is no sequence of sentences. -/
theorem wireFrom_none (w : List WireSym) : wireFrom none w = none := by cases w <;> rfl

/-- A history that grew is read on from where it stood. -/
theorem wireFrom_append (p : Option WirePos) (v w : List WireSym) : wireFrom p (v ++ w) = wireFrom (wireFrom p v) w := by
  induction v generalizing p with
  | nil => cases p <;> rfl
  | cons x v ih =>
    cases p with
    | none => rw [wireFrom_none, wireFrom_none, wireFrom_none]
    | some p => exact ih (p.next x)

/-- `P` ends any sentence that has begun. -/
theorem WirePos.next_stop {p : WirePos} (h : p ≠ .free) : p.next .stop = some .free := by
  cases p with
  | free => exact absurd rfl h
  | ready d => cases d <;> rfl
  | started | addressed | byteSent | byteGot | closing => rfl

/-! ### Where the phase says the wire stands -/

section
variable {s : State}

theorem State.wireWanted_free (hp : s.i2cPhase = .idle ∨ s.i2cPhase = .stop) : s.wireWanted = .free := by
  obtain hp | hp := hp <;> simp only [State.wireWanted, hp]

theorem State.wireWanted_addr (hp : s.i2cPhase = .addr) (hev : s.i2cEv = .none) : s.wireWanted = .addressed s.i2cDir := by
  simp only [State.wireWanted, hp, hev]

theorem State.wireWanted_tx (hp : s.i2cPhase = .tx) (hev : s.i2cEv = .none) : s.wireWanted = .byteSent := by
  simp only [State.wireWanted, hp, hev]

theorem State.wireWanted_rx (hp : s.i2cPhase = .rx) (hev : s.i2cEv = .none) : s.wireWanted = .ready .receive := by
  simp only [State.wireWanted, hp, hev]

theorem State.wireWanted_addr_ack (hp : s.i2cPhase = .addr) (hev : s.i2cEv = .ack) : s.wireWanted = .ready s.i2cDir := by
  simp only [State.wireWanted, hp, hev]

theorem State.wireWanted_tx_ack (hp : s.i2cPhase = .tx) (hev : s.i2cEv = .ack) : s.wireWanted = .ready .transmit := by
  simp only [State.wireWanted, hp, hev]

theorem State.wireWanted_nack (hp : s.i2cPhase = .addr ∨ s.i2cPhase = .tx) (hev : s.i2cEv = .nack) :
    s.wireWanted = .closing := by
  obtain hp | hp := hp <;> simp only [State.wireWanted, hp, hev]

theorem State.wireWanted_data (hp : s.i2cPhase = .rx) (hev : s.i2cEv = .data) : s.wireWanted = .byteGot := by
  simp only [State.wireWanted, hp, hev]

theorem State.wireWanted_ne_free (hidle : s.i2cPhase ≠ .idle) (hstop : s.i2cPhase ≠ .stop) :
    s.wireWanted ≠ .free := by
  unfold State.wireWanted
  split <;> simp_all

/-- An event that puts nothing on the wire leaves where it stands. -/
theorem State.wireWanted_postI2c (hev : s.i2cEv = .none) {e : Event}
    (he : e = .stopped ∨ e = .wcol ∨ e = .timeout) (d : Byte) : (s.postI2c e d).wireWanted = s.wireWanted := by
  obtain rfl | rfl | rfl := he <;> cases hp : s.i2cPhase <;> simp [State.wireWanted, hp, hev]

end

/-! ### The wire under the shared operations -/

/-- The wire grew by symbols that lead from where it stood to where the new state says it stands. -/
theorem State.WireInv.extend {s t : State} (h : s.WireInv) (w : List WireSym) (hwire : t.wire = s.wire ++ w) {p q : WirePos}
    (hs : s.wireWanted = p) (ht : t.wireWanted = q) (hpq : wireFrom (some p) w = some q) : t.WireInv := by
  have hstood : wireFrom (some .free) s.wire = some s.wireWanted := h
  rw [State.WireInv, wirePos, hwire, wireFrom_append, hstood, hs, hpq, ht]

/-- The controller idles, the stop condition driven where one was owed: what `Fault(k)` and `I2C.RESET` share
(42_i2c_bus_fsm R160, 41_i2c_transport R123). -/
theorem State.WireInv.end_sentence {s t : State} (h : s.WireInv) (hphase : t.i2cPhase = .idle)
    (hwire : t.wire = s.wire ++ if s.i2cPhase ≠ .idle ∧ s.i2cPhase ≠ .stop then [.stop] else []) : t.WireInv := by
  have hfree := State.wireWanted_free (.inl hphase)
  split at hwire
  · next howes => exact h.extend _ hwire rfl hfree (WirePos.next_stop (State.wireWanted_ne_free howes.1 howes.2))
  · next hrest => exact h.extend _ hwire (State.wireWanted_free (by tauto)) hfree rfl

theorem State.WireInv.postI2c {s : State} (h : s.WireInv) (hev : s.i2cEv = .none) {e : Event}
    (he : e = .stopped ∨ e = .wcol ∨ e = .timeout) (d : Byte) : (s.postI2c e d).WireInv :=
  h.trans (congrArg some (State.wireWanted_postI2c hev he d).symm)

/-- A start follows the stop of the operation before (42_i2c_bus_fsm R164). -/
theorem State.WireInv.startOperation {s : State} (h : s.WireInv) (hidle : s.i2cPhase = .idle) (hev : s.i2cEv = .none)
    (d : Dir) (n : Byte) : (s.startOperation d n).WireInv :=
  h.extend [.start, .ad s.i2cAddr d] rfl (State.wireWanted_free (.inl hidle)) (State.wireWanted_addr rfl hev) rfl

theorem endHold_wireInv {s : State} (h : s.WireInv) : (endHold s).WireInv := by
  obtain ⟨-, -, he⟩ | ⟨-, he⟩ := endHold_cases s <;> rw [he] <;> exact h

theorem State.WireInv.countWait {s : State} (h : s.WireInv) (hev : s.i2cEv = .none) : s.countWait.WireInv := by
  unfold State.countWait
  simp only
  split
  · exact State.WireInv.postI2c (s := { s with i2cToCnt := s.i2cToCnt + 1 }) h hev (.inr (.inr rfl)) 0
  · exact h

/-! ### The wire under the commands -/

/-- No command breaks the grammar where no event is latched: a start is driven by an idle controller only. -/
theorem CommandEffect.keeps_wireInv {s t : State} (hinv : s.Inv) (hquiet : s.ipI2c = false) (h : s.WireInv)
    (he : CommandEffect s t) : t.WireInv := by
  have hev := hinv.no_event hquiet
  cases he with
  | rejected | answered | running | pollEnded | gateTaken | gateReleased | tickStarted | tickStopped | addressSet
  | pushed => exact h
  | holdBegun need => exact endHold_wireInv (s := { s with dlyT0 := s.frCount, dlyNeed := need, dlyActive := true }) h
  | inited a fresh =>
    have hidle : s.i2cBusy = false := by
      by_contra hbusy
      exact absurd (hinv.transport.busyInited (by simpa using hbusy)) (by simp [fresh])
    exact h.end_sentence rfl (by simp [hinv.idle hidle])
  | abandoned =>
    rw [drive_stop_of_owesStop]
    exact h.end_sentence rfl rfl
  | collided busy => exact h.postI2c hev (.inr (.inl rfl)) 0
  | transmitStarted ready idle => exact h.startOperation (hinv.idle idle) hev .transmit s.i2cTxlen
  | receiveStarted n ready idle => exact h.startOperation (hinv.idle idle) hev .receive n
  | waited busy => exact h.countWait hev

/-! ### The wire under the handlers -/

section
variable {s t : State} (h : s.WireInv)
include h

theorem faultCallback_wireInv {k : FaultKind} (hp : s.i2cPhase ≠ .idle) (ht : faultCallback k s.clearI2cRequest = .next t) :
    t.WireInv := by
  obtain ⟨-, rfl⟩ := faultCallback_next ht
  exact h.end_sentence rfl (by by_cases hstop : s.i2cPhase = .stop <;> simp [hp, hstop])

/-- After the address's `A` the first byte follows, or `P`, or the device's first byte. -/
theorem addressAcked_wireInv (hp : s.i2cPhase = .addr) (hev : s.i2cEv = .ack)
    (ht : addressAcked s.clearI2cRequest = .next t) : t.WireInv := by
  have hpos := State.wireWanted_addr_ack hp hev
  obtain ⟨hd, rfl⟩ | ⟨hd, -, rfl⟩ | ⟨hd, -, rfl⟩ := addressAcked_next ht
  all_goals
    rw [State.clearI2cRequest_i2cDir] at hd
    rw [hd] at hpos
  · exact h.extend [] (List.append_nil _).symm hpos (State.wireWanted_rx rfl rfl) rfl
  · exact h.extend [.stop] rfl hpos (State.wireWanted_free (.inr rfl)) rfl
  · exact h.extend [.sent _] rfl hpos (State.wireWanted_tx rfl rfl) rfl

/-- After a byte's `A` the next byte follows, or `P`. -/
theorem byteAcked_wireInv (hp : s.i2cPhase = .tx) (hev : s.i2cEv = .ack) (ht : byteAcked s.clearI2cRequest = .next t) :
    t.WireInv := by
  have hpos := State.wireWanted_tx_ack hp hev
  obtain ⟨-, rfl⟩ | ⟨-, -, rfl⟩ := byteAcked_next ht
  · exact h.extend [.stop] rfl hpos (State.wireWanted_free (.inr rfl)) rfl
  · exact h.extend [.sent _] rfl hpos (State.wireWanted_tx hp rfl) rfl

/-- After the device's byte the master answers `MA`, or `MN` and `P`. -/
theorem byteReceived_wireInv {d : Byte} (hp : s.i2cPhase = .rx) (hev : s.i2cEv = .data)
    (ht : byteReceived d s.clearI2cRequest = .next t) : t.WireInv := by
  have hpos := State.wireWanted_data hp hev
  obtain ⟨-, ⟨-, rfl⟩ | ⟨-, rfl⟩⟩ := byteReceived_next ht
  · exact h.extend [.masterNack, .stop] rfl hpos (State.wireWanted_free (.inr rfl)) rfl
  · exact h.extend [.masterAck] rfl hpos (State.wireWanted_rx hp rfl) rfl

theorem doneCallback_wireInv (hp : s.i2cPhase = .stop) : (doneCallback s.clearI2cRequest).WireInv :=
  h.end_sentence rfl (by simp [doneCallback, hp])

/-- The latched event fits its phase, so the wire stands where the arm it selects goes on from. -/
theorem i2cIsr_wireInv (hinv : s.Inv) (hpend : s.ipI2c = true)
    (ht : i2cArm s.i2cEv s.i2cEvData s.clearI2cRequest = .next t) : t.WireInv := by
  obtain ⟨hp, k, harm⟩ | ⟨hp, hev, harm⟩ | ⟨hp, hev, harm⟩ | ⟨hp, hev, harm⟩ | ⟨hp, -, harm⟩ :=
    i2cArm_of_fits (s := s.clearI2cRequest) s.i2cEvData (hinv.event_fits hpend)
  all_goals rw [harm] at ht
  · exact faultCallback_wireInv h hp ht
  · exact addressAcked_wireInv h hp hev ht
  · exact byteAcked_wireInv h hp hev ht
  · exact byteReceived_wireInv h hp hev ht
  · exact Host.Outcome.next.inj ht ▸ doneCallback_wireInv h hp

end

/-! ### The wire under the environment -/

/-- A response's symbol leads from where the phase waits for it to where its event says; the other two put nothing on the wire. -/
theorem busInstr_wireInv {i : Instr} {s t : State} (hinv : s.Inv) (h : s.WireInv) (hi : i.isBus = true)
    (ht : exec i s = .next t) : t.WireInv := by
  obtain rfl | ⟨-, hquiet, e, d, w, rfl, hcase⟩ := busInstr_next hi ht
  · exact h
  have hev := hinv.no_event hquiet
  obtain ⟨-, hp, rfl, -, rfl⟩ | ⟨-, hp, rfl, -, rfl⟩ | ⟨-, hp, rfl, rfl⟩ | ⟨-, -, rfl, -, rfl⟩ | ⟨-, -, rfl, -, rfl⟩ :=
    hcase
  · obtain hp | hp := hp
    · exact h.extend [.ack] rfl (State.wireWanted_addr hp hev) (State.wireWanted_addr_ack hp rfl) rfl
    · exact h.extend [.ack] rfl (State.wireWanted_tx hp hev) (State.wireWanted_tx_ack hp rfl) rfl
  · have hclosing := State.wireWanted_nack (s := (s.postI2c .nack d).drive [.nack]) hp rfl
    obtain hp | hp := hp
    · exact h.extend [.nack] rfl (State.wireWanted_addr hp hev) hclosing rfl
    · exact h.extend [.nack] rfl (State.wireWanted_tx hp hev) hclosing rfl
  · exact h.extend [.received d] rfl (State.wireWanted_rx hp hev) (State.wireWanted_data hp rfl) rfl
  · exact (h.postI2c hev (.inl rfl) d).extend [] rfl rfl rfl rfl
  · exact (h.postI2c hev (.inr (.inl rfl)) d).extend [] rfl rfl rfl rfl

theorem tickStep_wireInv {s : State} (h : s.WireInv) : (tickStep s).WireInv := by
  rw [tickStep_eq]
  exact h

theorem pollStep_wireInv {s : State} (h : s.WireInv) : (pollStep s).WireInv := by
  unfold pollStep
  split <;> exact h

theorem perform_wireInv {l : Label} {s t : State} (hinv : s.Inv) (hquiet : s.ipI2c = false) (h : s.WireInv)
    (ht : perform l s = .next t) : t.WireInv := by
  obtain ⟨p, i, rfl, hd, hx⟩ | ⟨p, e, -, -, rfl⟩ | ⟨-, rfl⟩ | ⟨-, rfl⟩ | ⟨-, rfl⟩ | ⟨r, i, rfl, hd, hx⟩ |
    ⟨r, i, u, rfl, hd, hx, rfl⟩ := perform_next ht
  · exact (commandEffect_of_exec (isBus_of_packet hd) hx).keeps_wireInv hinv hquiet h
  · exact h
  · exact pollStep_wireInv h
  · exact tickStep_wireInv h
  · exact endHold_wireInv (s := { s with frCount := s.frCount + 1 }) h
  · exact busInstr_wireInv hinv h (isBus_of_decode hd rfl) hx
  · exact tickStep_wireInv (busInstr_wireInv hinv h (isBus_of_decode hd rfl) hx)

/-- Settles O42: the handlers, the commands and the environment each append what the grammar has next. -/
theorem wireStaysInGrammar : Obligations.WireStaysInGrammar := by
  intro s t hinv h ht
  obtain ⟨-, he⟩ | ⟨-, hpend, he⟩ | ⟨-, hquiet, l, rest, -, he⟩ | ⟨-, -, -, he⟩ := step_cases s
  all_goals rw [he] at ht
  · cases ht
    exact h
  · exact i2cIsr_wireInv h hinv hpend ht
  · exact perform_wireInv (hinv.with_agenda rest) hquiet (h.with_agenda rest) ht
  · cases ht
    exact h

end Sys2Proof.Machine
end

section
/-! Proofs of 42_i2c_bus_fsm: the bus responses (R151) and the arms of the handler (R153, R155, R157, R161, R163). -/

namespace Sys2Proof.Machine

/-! ### Bus responses (42_i2c_bus_fsm R151) -/

/-- Settles O32: each response is admitted in its phases and posts its event. -/
theorem busResponsesLatchTheirEvent : Obligations.BusResponsesLatchTheirEvent := by
  intro s hquiet
  have hnothing : (s.wire ++ [] : List WireSym) = s.wire := List.append_nil _
  refine ⟨fun hp => ?_, fun hp b => ?_, fun hp => ?_, fun hp => ?_⟩
  · have hfits := State.awaitsAck_iff.2 hp
    exact ⟨busStep_admitted hfits hquiet .ack 0 [.ack], busStep_admitted hfits hquiet .nack 0 [.nack]⟩
  · exact busStep_admitted (beq_iff_eq.2 hp) hquiet .data b [.received b]
  · have hstep := busStep_admitted (beq_iff_eq.2 hp) hquiet .stopped 0 []
    rwa [State.drive, State.postI2c, hnothing] at hstep
  · have hstep := busStep_admitted (bne_iff_ne.2 hp) hquiet .wcol 0 []
    rwa [State.drive, State.postI2c, hnothing] at hstep

/-- Settles O33: each response asks for its phases and for no request pending. -/
theorem unfitResponsesDoNothing : Obligations.UnfitResponsesDoNothing := by
  intro s b
  refine ⟨fun h => ?_, fun h => ?_, fun h => ?_, fun h => ?_⟩
  · have hunfit : ¬s.quiet ∨ s.awaitsAck ≠ true := h.imp_right fun hp => mt State.awaitsAck_iff.1 (not_or.2 hp)
    exact ⟨busStep_unfit hunfit _ _ _, busStep_unfit hunfit _ _ _⟩
  · exact busStep_unfit (h.imp_right (mt beq_iff_eq.1)) _ _ _
  · exact busStep_unfit (h.imp_right (mt beq_iff_eq.1)) _ _ _
  · exact busStep_unfit (h.imp_right fun hp => mt bne_iff_ne.1 (not_not.2 hp)) _ _ _

/-! ### The arms of the handler (42_i2c_bus_fsm R153 to R163) -/

theorem addressAcked_receive {s : State} (hd : s.i2cDir = .receive) :
    addressAcked s = .next { s with i2cPhase := .rx } := by
  simp only [addressAcked, hd]

theorem addressAcked_empty {s : State} (hd : s.i2cDir = .transmit) (hlen : s.i2cLen = 0) :
    addressAcked s = .next (State.drive { s with i2cPhase := .stop } [.stop]) := by
  simp only [addressAcked, hd, if_pos hlen]

theorem addressAcked_first {s : State} (hd : s.i2cDir = .transmit) (hlen : s.i2cLen ≠ 0) (hcap : 0 < s.cfg.i2cBufLen) :
    addressAcked s = .next (State.drive { s with i2cPhase := .tx } [.sent (s.i2cTxbuf.read 0)]) := by
  simp only [addressAcked, hd, if_neg hlen]
  exact loadByte_inside hcap

theorem byteAcked_last {s : State} (hlast : s.i2cIdx + 1 = s.i2cLen) :
    byteAcked s = .next (State.drive { s with i2cIdx := s.i2cIdx + 1, i2cPhase := .stop } [.stop]) := if_pos hlast

theorem byteAcked_more {s : State} (hmore : s.i2cIdx + 1 ≠ s.i2cLen) (hcap : (s.i2cIdx + 1).toNat < s.cfg.i2cBufLen) :
    byteAcked s = .next (State.drive { s with i2cIdx := s.i2cIdx + 1 } [.sent (s.i2cTxbuf.read (s.i2cIdx + 1).toNat)]) :=
  (if_neg hmore).trans (loadByte_inside hcap)

/-- Settles O34: the phase selects the arm, the direction and the bytes left select its branch. -/
theorem ackMovesOperationOn : Obligations.AckMovesOperationOn := fun _ d =>
  ⟨fun hp hd => (i2cArm_ack_addr d hp).trans (addressAcked_receive hd),
    fun hp hd hlen => (i2cArm_ack_addr d hp).trans (addressAcked_empty hd hlen),
    fun hp hd hlen hcap => (i2cArm_ack_addr d hp).trans (addressAcked_first hd hlen hcap),
    fun hp hlast => (i2cArm_ack_tx d hp).trans (byteAcked_last hlast),
    fun hp hmore hcap => (i2cArm_ack_tx d hp).trans (byteAcked_more hmore hcap)⟩

/-- Settles O35: the byte is written at the index, which a canonical buffer reads back there and nowhere else. -/
theorem dataByteIsStoredInOrder : Obligations.DataByteIsStoredInOrder := by
  intro s d hp hroom
  have harm := (i2cArm_data_rx d hp).trans (storeByte_inside (sp := .rxbuf) hroom)
  exact ⟨s.i2cRxbuf.write s.i2cIdx.toNat d, fun hwf => Memory.read_write hwf _ d,
    fun hlast => harm.trans (if_pos hlast), fun hmore => harm.trans (if_neg hmore)⟩

/-- Settles O37. -/
theorem stopCompletesOperation : Obligations.StopCompletesOperation := fun _ d hp => i2cArm_stopped_stop d hp

/-- An event that does not fit its phase selects no arm (42_i2c_bus_fsm R163). -/
theorem i2cArm_of_unfit {e : Event} {s : State} (d : Byte) (h : ¬eventFits s.i2cPhase e) : i2cArm e d s = .next s := by
  cases hp : s.i2cPhase with
  | idle => simp only [i2cArm, hp]
  | addr | tx | rx | stop =>
    rw [hp] at h
    cases e <;> simp [eventFits] at h <;> simp only [i2cArm, hp]

/-- Settles O38: none of these events fits its phase. -/
theorem unlistedEventsReturnUnchanged : Obligations.UnlistedEventsReturnUnchanged := by
  intro s d e h
  refine i2cArm_of_unfit d fun hfits => ?_
  obtain hp | rfl | ⟨rfl, hp⟩ | ⟨rfl, hp⟩ | ⟨rfl | rfl, hp⟩ := h
  · rw [hp] at hfits
    cases e <;> simp [eventFits] at hfits
  · exact hfits
  · exact hp hfits
  · exact hp hfits
  all_goals
    obtain hfits | hfits := hfits <;> simp [hfits] at hp

end Sys2Proof.Machine
end

section
/-! Proofs of 42_i2c_bus_fsm: one callback ends an operation (R165). -/

namespace Sys2Proof.Machine

/-! ### The ways a step treats an outstanding operation (42_i2c_bus_fsm R165) -/

/-- No callback fires: a poll is all that the trace may gain. -/
def NoCallback (s t : State) : Prop := ∃ added, t.trace = s.trace ++ added ∧ ∀ c, .cb c ∉ added

/-- Whatever the trace gained, a callback in it is all of it, and an operation has ended. -/
def CallbackStandsAlone (s t : State) : Prop :=
  ∃ added : List TraceEvent, t.trace = s.trace ++ added ∧
    ∀ c : Callback, .cb c ∈ added → added = [.cb c] ∧ s.i2cBusy = true ∧ t.i2cBusy = false

/-- No callback fires and no operation ends. -/
structure KeepsOperation (s t : State) : Prop where
  trace : NoCallback s t
  busy : s.i2cBusy = true → t.i2cBusy = true

/-- The outstanding operation ends with the callback `c` alone. -/
structure EndsWith (c : Callback) (s t : State) : Prop where
  outstanding : s.i2cBusy = true
  ended : t.i2cBusy = false
  trace : t.trace = s.trace ++ [.cb c]

/-- What `Done()` leaves: the error flag and the history as they were (42_i2c_bus_fsm R161). -/
structure Completes (s t : State) : Prop extends EndsWith .done s t where
  error : t.i2cError = s.i2cError
  history : SameHistory s t

/-- What `Fault(k)` leaves: the error flag set, and one new history entry at the head (42_i2c_bus_fsm R160). -/
structure Faults (k : FaultKind) (s t : State) : Prop extends EndsWith (.fault k) s t where
  error : t.i2cError = true
  head : t.i2cErrHead.toNat = (s.i2cErrHead.toNat + 1) % s.cfg.i2cErrlogLen
  count : t.i2cErrCount.toNat = min (s.i2cErrCount.toNat + 1) s.cfg.i2cErrlogLen
  entries : ∀ j : Nat, t.i2cErrlog.read j = if j = s.i2cErrHead.toNat then k.code else s.i2cErrlog.read j

/-- What `I2C.RESET` leaves of the output events and the history: all of it (41_i2c_transport R123). -/
structure Abandons (s t : State) : Prop where
  trace : t.trace = s.trace
  history : SameHistory s t

theorem NoCallback.of_eq {s t : State} (htrace : t.trace = s.trace) : NoCallback s t :=
  ⟨[], by rw [htrace, List.append_nil], by simp⟩

theorem NoCallback.standsAlone {s t : State} (h : NoCallback s t) : CallbackStandsAlone s t := by
  obtain ⟨added, htrace, hnone⟩ := h
  exact ⟨added, htrace, fun c hc => absurd hc (hnone c)⟩

theorem EndsWith.standsAlone {c : Callback} {s t : State} (h : EndsWith c s t) : CallbackStandsAlone s t :=
  ⟨[.cb c], h.trace, fun _ hc => ⟨by rw [List.mem_singleton.1 hc], h.outstanding, h.ended⟩⟩

theorem KeepsOperation.of_eq {s t : State} (htrace : t.trace = s.trace) (hbusy : s.i2cBusy = true → t.i2cBusy = true) :
    KeepsOperation s t :=
  ⟨.of_eq htrace, hbusy⟩

theorem SameProgress.keepsOperation {s t : State} (h : SameProgress s t) : KeepsOperation s t :=
  .of_eq h.trace h.busy.trans

/-! ### The handler (42_i2c_bus_fsm R160, R161) -/

/-- `Fault(k)` ends the operation that the request was for. -/
theorem faultCallback_faults {k : FaultKind} {s t : State} (hinv : s.Inv) (hbusy : s.i2cBusy = true)
    (h : faultCallback k s.clearI2cRequest = .next t) : Faults k s t := by
  obtain ⟨-, -, ⟨-, hcap⟩, -⟩ := hinv.cfg
  have hroom := hinv.transport.errHead
  obtain ⟨-, rfl⟩ := faultCallback_next h
  have hhead : (BitVec.ofNat 8 ((s.i2cErrHead.toNat + 1) % s.cfg.i2cErrlogLen)).toNat =
      (s.i2cErrHead.toNat + 1) % s.cfg.i2cErrlogLen := by
    have hlt := Nat.mod_lt (s.i2cErrHead.toNat + 1) (Nat.zero_lt_of_lt hroom)
    rw [BitVec.toNat_ofNat, Nat.mod_eq_of_lt (by omega)]
  exact ⟨⟨hbusy, rfl, rfl⟩, rfl, hhead, errAdvance_count_toNat hcap, Memory.read_write hinv.transport.errlog.1 _ _⟩

/-- The handler of a pending request moves the operation on, completes it or ends it in a fault. -/
theorem i2cIsr_ends {s t : State} (hinv : s.Inv) (hpend : s.ipI2c = true)
    (h : i2cArm s.i2cEv s.i2cEvData s.clearI2cRequest = .next t) :
    KeepsOperation s t ∨ Completes s t ∨ ∃ k, Faults k s t := by
  have hfits := hinv.event_fits hpend
  have hbusy : s.i2cBusy = true := by
    by_contra hidle
    exact absurd (hinv.quiet_of_idle (by simpa using hidle)) (by simp [hpend])
  obtain ⟨-, k, harm⟩ | ⟨-, -, harm⟩ | ⟨-, -, harm⟩ | ⟨-, -, harm⟩ | ⟨-, -, harm⟩ :=
    i2cArm_of_fits (s := s.clearI2cRequest) s.i2cEvData hfits
  all_goals rw [harm] at h
  · exact .inr (.inr ⟨k, faultCallback_faults hinv hbusy h⟩)
  · obtain ⟨-, rfl⟩ | ⟨-, -, rfl⟩ | ⟨-, -, rfl⟩ := addressAcked_next h <;> exact .inl (.of_eq rfl id)
  · obtain ⟨-, rfl⟩ | ⟨-, -, rfl⟩ := byteAcked_next h <;> exact .inl (.of_eq rfl id)
  · obtain ⟨-, ⟨-, rfl⟩ | ⟨-, rfl⟩⟩ := byteReceived_next h <;> exact .inl (.of_eq rfl id)
  · cases h
    exact .inr (.inl ⟨⟨hbusy, rfl, rfl⟩, rfl, rfl, rfl, rfl⟩)

/-! ### The commands -/

theorem endHold_keepsOperation (s : State) : KeepsOperation s (endHold s) := by
  obtain ⟨-, -, he⟩ | ⟨-, he⟩ := endHold_cases s <;> rw [he] <;> exact .of_eq rfl id

/-- A command keeps the operation where its own rule does: a rejection changes nothing. -/
theorem keepsOperation_of_guarded {cs : List (Option Status)} {s t : State} {run : Result} (h : guarded cs s run = .next t)
    (hrun : firstRaised cs = none → run = .next t → KeepsOperation s t) : KeepsOperation s t := by
  obtain ⟨e, -, rfl⟩ | ⟨hc, hr⟩ := guarded_next h
  · exact .of_eq rfl id
  · exact hrun hc hr

/-- Of the commands only `I2C.RESET` ends an operation; `I2C.INIT` finds none. -/
theorem exec_keepsOperation {i : Instr} {s t : State} (hinv : s.Inv) (hbus : i.isBus = false) (hi : i ≠ .i2cReset)
    (h : exec i s = .next t) : KeepsOperation s t := by
  cases i with
  | i2cReset => exact absurd rfl hi
  | busAck | busNack | busData | busStopped | busCollision => exact absurd hbus (by simp [Instr.isBus])
  | schRun | schRet | sysRd | tbStart | tbStop | tbNow | tbElapsed | i2cSetaddr | i2cResult =>
    refine keepsOperation_of_guarded h fun _ hr => ?_
    cases hr
    exact .of_eq rfl id
  | i2cInit =>
    refine keepsOperation_of_guarded h fun hc hr => ?_
    cases hr
    have hcheck := check_passes hc (c := checkThat (!s.i2cInited) .state) (by simp)
    have hfresh : s.i2cInited = false := by simpa using hcheck
    exact .of_eq rfl fun hbusy => absurd (hinv.transport.busyInited hbusy) (by simp [hfresh])
  | dlyMs | dlyUs =>
    refine keepsOperation_of_guarded h fun _ hr => ?_
    cases hr
    exact { endHold_keepsOperation { s with dlyT0 := s.frCount, dlyNeed := _, dlyActive := true } with }
  | i2cPush =>
    refine keepsOperation_of_guarded h fun _ hr => ?_
    split at hr
    · cases hr
      exact .of_eq rfl id
    · cases (storeByte_next hr).2
      exact .of_eq rfl id
  | i2cStarttx | i2cStartrx =>
    refine keepsOperation_of_guarded h fun _ hr => ?_
    split at hr <;> cases hr
    · exact .of_eq rfl id
    · exact .of_eq rfl fun _ => rfl
  | gateReq | gateRel =>
    refine keepsOperation_of_guarded h fun _ hr => ?_
    split_ifs at hr <;> cases hr <;> exact .of_eq rfl id
  | i2cWait =>
    refine keepsOperation_of_guarded h fun _ hr => ?_
    split at hr <;> cases hr
    · obtain ⟨-, hbusy, htrace, -⟩ := countWait_respond_counts s
      exact .of_eq htrace hbusy.trans
    · exact .of_eq rfl id
  | i2cRxrd | i2cErrrd =>
    refine keepsOperation_of_guarded h fun _ hr => ?_
    cases (loadByte_next hr).2
    exact .of_eq rfl id

/-- `I2C.RESET` leaves the output events and the history, whether it is rejected or abandons an operation. -/
theorem i2cReset_abandons {s t : State} (h : exec .i2cReset s = .next t) : Abandons s t ∧ t.agenda = s.agenda := by
  rw [exec_i2cReset, drive_stop_of_owesStop] at h
  obtain ⟨e, -, rfl⟩ | ⟨-, hr⟩ := guarded_next h
  · exact ⟨⟨rfl, rfl, rfl, rfl⟩, rfl⟩
  · cases hr
    refine ⟨⟨?_, ?_, ?_, ?_⟩, ?_⟩ <;> simp

/-! ### The labels and the step -/

theorem pollStep_keepsOperation (s : State) : KeepsOperation s (pollStep s) := by
  unfold pollStep
  split
  · exact ⟨⟨[.poll s.schSlot], rfl, by simp⟩, id⟩
  · exact .of_eq rfl id

/-- Of the labels only the packet of `I2C.RESET` ends an operation, and none fires a callback. -/
theorem perform_keepsOperation {l : Label} {s t : State} (hinv : s.Inv) (h : perform l s = .next t) :
    KeepsOperation s t ∨ (l = encode .i2cReset ∧ Abandons s t ∧ t.agenda = s.agenda) := by
  obtain ⟨p, i, rfl, hd, hx⟩ | ⟨p, e, -, -, rfl⟩ | ⟨-, rfl⟩ | ⟨-, rfl⟩ | ⟨-, rfl⟩ | ⟨r, i, rfl, hd, hx⟩ |
    ⟨r, i, u, rfl, hd, hx, rfl⟩ := perform_next h
  · by_cases hi : i = .i2cReset
    · subst hi
      exact .inr ⟨(encode_of_decode_packet hd).symm, i2cReset_abandons hx⟩
    · exact .inl (exec_keepsOperation hinv (isBus_of_packet hd) hi hx)
  · exact .inl (.of_eq rfl id)
  · exact .inl (pollStep_keepsOperation s)
  · exact .inl (tickStep_sameProgress s).keepsOperation
  · exact .inl { endHold_keepsOperation { s with frCount := s.frCount + 1 } with }
  · exact .inl (busInstr_sameProgress (isBus_of_decode hd rfl) hx).keepsOperation
  · exact .inl ((busInstr_sameProgress (isBus_of_decode hd rfl) hx).trans (tickStep_sameProgress u)).keepsOperation

/-- A step keeps the operation, completes it, ends it in a fault, or abandons it by `I2C.RESET`. -/
theorem step_ends {s t : State} (hinv : s.Inv) (h : step s = .next t) :
    KeepsOperation s t ∨ Completes s t ∨ (∃ k, Faults k s t) ∨
    (Abandons s t ∧ s.quiet ∧ s.agenda = encode .i2cReset :: t.agenda) := by
  obtain ⟨-, he⟩ | ⟨-, hpend, he⟩ | ⟨hT, hI, l, rest, hl, he⟩ | ⟨-, -, -, he⟩ := step_cases s
  all_goals rw [he] at h
  · cases h
    exact .inl (.of_eq rfl id)
  · obtain hkeeps | hdone | hfault := i2cIsr_ends hinv hpend h
    · exact .inl hkeeps
    · exact .inr (.inl hdone)
    · exact .inr (.inr (.inl hfault))
  · obtain hkeeps | ⟨rfl, habandons, hagenda⟩ := perform_keepsOperation (hinv.with_agenda rest) h
    · exact .inl { hkeeps with }
    · obtain ⟨hold, -⟩ := (isCmd_of_nextLabel hl).1 rfl
      have hnext : s.agenda = encode .i2cReset :: t.agenda := by
        rw [hagenda]
        exact (nextLabel_some hl).1 hold
      exact .inr (.inr (.inr ⟨{ habandons with }, ⟨hT, hI⟩, hnext⟩))
  · cases h
    exact .inl (.of_eq rfl id)

/-- Settles O40: of the ways a step treats an operation, two end it with a callback and one without. -/
theorem oneCallbackEndsOperation : Obligations.OneCallbackEndsOperation := by
  intro s t hinv h
  obtain hkeeps | hdone | ⟨k, hfault⟩ | ⟨habandons, hquiet, hagenda⟩ := step_ends hinv h
  · refine ⟨fun hbusy hidle => ?_, hkeeps.trace.standsAlone⟩
    exact absurd (hkeeps.busy hbusy) (by simp [hidle])
  · exact ⟨fun _ _ => .inl ⟨hdone.trace, hdone.error, hdone.history⟩, hdone.standsAlone⟩
  · refine ⟨fun _ _ => .inr (.inl ⟨k, k.code, ?_⟩), hfault.standsAlone⟩
    exact ⟨faultNumber_iff.2 rfl, hfault.trace, hfault.error, hfault.head, hfault.count, hfault.entries⟩
  · exact ⟨fun _ _ => .inr (.inr ⟨habandons.trace, habandons.history, hquiet, hagenda⟩),
      (NoCallback.of_eq habandons.trace).standsAlone⟩

end Sys2Proof.Machine
end

section
/-! Proofs of 43_scheduler_gate, the layer: the search for an enabled slot (R193), the fields of a status register (10_state R47), the
commands as guarded effects, and who owns the gate (R186, R187). -/

namespace Sys2Proof.Machine

/-! ### The search for an enabled slot (43_scheduler_gate R193) -/

/-- A slot that the search finds is not below where it starts, and passes over no enabled one. -/
theorem lowestEnabled_least {mask : BitVec 6} {lo t : Nat} (h : lowestEnabled mask lo = some t) :
    lo ≤ t ∧ ∀ u, lo ≤ u → u < t → mask.getLsbD u = false := by
  obtain ⟨hfound, -, hpassed⟩ := List.find?_range_eq_some.1 h
  rw [Bool.and_eq_true, decide_eq_true_eq] at hfound
  exact ⟨hfound.1, fun u hlo hu => by simpa [hlo] using hpassed u hu⟩

/-- A search that finds nothing leaves no enabled slot from its start on. -/
theorem lowestEnabled_none {mask : BitVec 6} {lo : Nat} (h : lowestEnabled mask lo = none) {u : Nat} (hlo : lo ≤ u) :
    mask.getLsbD u = false := by
  by_cases hu : u < 6
  · simpa [hlo] using List.find?_eq_none.1 h u (List.mem_range.2 hu)
  · exact BitVec.getLsbD_of_ge _ _ (Nat.le_of_not_lt hu)

theorem slotFrom_of_some {mask : BitVec 6} {lo t : Nat} (h : lowestEnabled mask lo = some t) : (slotFrom mask lo).toNat = t := by
  have ht : t < 6 := (lowestEnabled_some h).1
  simp only [slotFrom, h, BitVec.toNat_ofNat]
  omega

/-- Where a slot from `lo` on is enabled, `slotFrom` is the lowest of them. -/
theorem slotFrom_least {mask : BitVec 6} {lo : Nat} (h : ∃ u, lo ≤ u ∧ mask.getLsbD u = true) :
    lo ≤ (slotFrom mask lo).toNat ∧ ∀ u, lo ≤ u → u < (slotFrom mask lo).toNat → mask.getLsbD u = false := by
  obtain ⟨u, hlo, hon⟩ := h
  cases hfound : lowestEnabled mask lo with
  | none => exact absurd (lowestEnabled_none hfound hlo) (by simp [hon])
  | some t =>
    rw [slotFrom_of_some hfound]
    exact lowestEnabled_least hfound

/-- Where none is, the search starts again at slot 0. -/
theorem slotFrom_wraps {mask : BitVec 6} {lo : Nat} (h : ∀ u, lo ≤ u → mask.getLsbD u = false) :
    slotFrom mask lo = firstSlot mask := by
  have hnone : lowestEnabled mask lo = none := by
    cases hfound : lowestEnabled mask lo with
    | none => rfl
    | some t =>
      have hoff := h t (lowestEnabled_least hfound).1
      exact absurd (lowestEnabled_some hfound).2 (by simp [hoff])
  cases hfirst : lowestEnabled mask 0 <;> simp only [firstSlot, slotFrom, hnone, hfirst, Option.getD]

/-! ### The fields of a status register (10_state R47) -/

theorem toNat_append_fields {m n : Nat} (v : BitVec m) (u : BitVec n) : (v ++ u).toNat = 2 ^ n * v.toNat + u.toNat := by
  rw [BitVec.toNat_append, ← Nat.shiftLeft_add_eq_or_of_lt u.isLt, Nat.shiftLeft_eq, Nat.mul_comm]

/-- Widening to a word keeps the value. -/
theorem zext32_toNat {w : Nat} (hw : w ≤ 32) (v : BitVec w) : (zext32 v).toNat = v.toNat := BitVec.toNat_setWidth_of_le hw

theorem bit_toNat (b : Bool) : (bit b).toNat = b.toNat := BitVec.toNat_ofBool b

/-- Two fields side by side, the second one in the low bits. -/
theorem zext32_append_toNat {m n : Nat} (hfits : m + n ≤ 32) (v : BitVec m) (u : BitVec n) :
    (zext32 (v ++ u)).toNat = u.toNat + 2 ^ n * v.toNat := by
  rw [zext32_toNat hfits, toNat_append_fields, Nat.add_comm]

section
variable (s : State)

theorem sregValue_tbCount : sregValue s 0x01 = s.tbVal := rfl

theorem sregValue_tbRun : sregValue s 0x02 = zext32 (bit s.tbRun) := rfl

theorem sregValue_frCount : sregValue s 0x03 = s.frCount := rfl

theorem sregValue_i2cCtl : sregValue s 0x10 = zext32 (s.i2cCbEn ++ bit s.i2cInited) := rfl

theorem sregValue_i2cAddr : sregValue s 0x11 = zext32 s.i2cAddr := rfl

theorem sregValue_i2cStatus :
    sregValue s 0x12 = zext32 (s.i2cLen ++ s.i2cIdx ++ (0 : BitVec 2) ++ s.i2cDir.code ++ s.i2cPhase.code ++
      bit s.i2cError ++ bit s.i2cBusy) := rfl

theorem sregValue_toCnt : sregValue s 0x13 = s.i2cToCnt := rfl

theorem sregValue_lengths : sregValue s 0x14 = zext32 (s.i2cRxlen ++ s.i2cTxlen) := rfl

theorem sregValue_history : sregValue s 0x15 = zext32 (s.i2cErrHead ++ s.i2cErrCount) := rfl

theorem sregValue_scheduler : sregValue s 0x20 = zext32 (s.schSlot ++ bit s.schInPoll ++ bit s.schRunning) := rfl

theorem sregValue_gate : sregValue s 0x21 = zext32 (s.gateOwner ++ bit s.gateHeld) := rfl

/-- The transport's status: flags, phase and direction in the low byte, then the index and the length. -/
theorem sregValue_i2cStatus_toNat :
    (sregValue s 0x12).toNat = s.i2cBusy.toNat + 2 * s.i2cError.toNat + 4 * s.i2cPhase.code.toNat + 32 * s.i2cDir.code.toNat +
      2 ^ 8 * s.i2cIdx.toNat + 2 ^ 16 * s.i2cLen.toNat := by
  have hgap : (0 : BitVec 2).toNat = 0 := rfl
  rw [sregValue_i2cStatus, zext32_append_toNat (by decide)]
  simp only [toNat_append_fields, bit_toNat, hgap]
  omega

end

/-! ### The five commands: their checks and their effect -/

section
variable (s : State)

theorem exec_schRun :
    exec .schRun s = guarded [ctxCheck s, checkThat (!s.schRunning) .state] s
      (.next (State.respond { s with schRunning := true, schSlot := firstSlot s.cfg.schEnableMask, schInPoll := false } 0)) := rfl

theorem exec_schRet :
    exec .schRet s = guarded [ctxCheck s, checkThat s.schInPoll .state] s
      (.next (State.respond { s with schInPoll := false, schSlot := nextSlot s.cfg.schEnableMask s.schSlot } 0)) := rfl

theorem exec_sysRd (r : Byte) :
    exec (.sysRd r) s = guarded [sregCheck r, ctxCheck s] s (.next (s.respond (sregValue s r))) := rfl

theorem exec_gateReq :
    exec .gateReq s = guarded [ctxCheck s] s
      (if s.ownsGate then .next (s.respond 1)
       else if !s.gateHeld && !s.i2cBusy then .next (State.respond { s with gateHeld := true, gateOwner := s.requester } 1)
       else .next (s.respond 0)) := rfl

theorem exec_gateRel :
    exec .gateRel s = guarded [ctxCheck s, checkThat (!(s.ownsGate && s.i2cBusy)) .state] s
      (if s.ownsGate then .next (State.respond { s with gateHeld := false } 1) else .next (s.respond 0)) := rfl

end

/-! ### Who owns the gate (43_scheduler_gate R181, R186) -/

theorem State.ownsGate_iff {s : State} : s.ownsGate = true ↔ s.gateHeld = true ∧ s.gateOwner = s.requester := by
  simp [State.ownsGate]

theorem State.ownsGate_eq_false {s : State} : s.ownsGate = false ↔ s.gateHeld = false ∨ s.gateOwner ≠ s.requester := by
  rw [← Bool.not_eq_true, State.ownsGate_iff, not_and_or, Bool.not_eq_true]

/-! ### POLL (43_scheduler_gate R183) -/

/-- Where the loop runs and no poll is open, one begins. -/
theorem pollStep_of_enabled {s : State} (hrun : s.schRunning = true) (hnone : s.schInPoll = false) :
    pollStep s = State.emit { s with schInPoll := true } (.poll s.schSlot) := by
  simp [pollStep, hrun, hnone]

theorem step_poll {s : State} {rest : List Label} (hquiet : s.quiet) (hagenda : s.agenda = .poll :: rest) :
    step s = .next (pollStep { s with agenda := rest }) :=
  step_label hquiet.1 hquiet.2 hagenda (.inr rfl)

end Sys2Proof.Machine
end

section
/-! Proofs of 43_scheduler_gate: the loop (R182 to R184, R193), the status read (R188) and the gate's two commands (R186, R187). -/

namespace Sys2Proof.Machine

/-! ### The slots (43_scheduler_gate R193) -/

/-- Settles O46: both slots are searches, from slot 0 and from the one above the present slot. -/
theorem nextSlotIsLowestEnabled : Obligations.NextSlotIsLowestEnabled := by
  intro mask slot hmask
  have hfirst : mask.getLsbD (firstSlot mask).toNat = true := (slotFrom_enabled hmask 0).2
  have hnext : mask.getLsbD (nextSlot mask slot).toNat = true := (slotFrom_enabled hmask (slot.toNat + 1)).2
  have hlowest := slotFrom_least ⟨_, Nat.zero_le _, hfirst⟩
  exact ⟨hnext, hfirst, fun u => hlowest.2 u (Nat.zero_le u), slotFrom_least, slotFrom_wraps⟩

/-! ### The loop (43_scheduler_gate R182 to R184) -/

theorem schRun_rejectsAsTabled : RejectsAsTabled .schRun :=
  rejectsAsTabled_of_tableChecks exec_schRun fun s => by
    cases hrun : s.schRunning <;> simp [firstRaised_cons, tableChecks, Instr.wf, needsInit, isGated, ownRejection, hrun]

/-- Settles O44: outside the loop the context is open. -/
theorem schRunEntersLoop : Obligations.SchRunEntersLoop := by
  refine ⟨encodedF0_of_formOf rfl, schRun_rejectsAsTabled, fun s hstopped => ?_⟩
  have hctx : s.ctxOpen := fun ⟨hrun, _⟩ => by simp [hstopped] at hrun
  rw [exec_schRun, ctxCheck_eq_none.2 hctx, hstopped]
  rfl

theorem schRet_rejectsAsTabled : RejectsAsTabled .schRet :=
  rejectsAsTabled_of_tableChecks exec_schRet fun s => by
    cases hpoll : s.schInPoll <;> simp [firstRaised_cons, tableChecks, Instr.wf, needsInit, isGated, ownRejection, hpoll]

/-- Settles O45: inside a poll the context is open. -/
theorem schRetAdvancesSlot : Obligations.SchRetAdvancesSlot := by
  refine ⟨encodedF0_of_formOf rfl, schRet_rejectsAsTabled, fun s hpoll => ?_⟩
  have hctx : s.ctxOpen := fun ⟨_, hnone⟩ => by simp [hpoll] at hnone
  rw [exec_schRet, ctxCheck_eq_none.2 hctx, hpoll]
  rfl

/-- Settles O47: the label is next, and it is enabled exactly where the context is closed. -/
theorem pollOpensPoll : Obligations.PollOpensPoll := by
  intro s rest hquiet hagenda
  rw [step_poll hquiet hagenda]
  refine ⟨fun hrun hnone => ?_, fun hdisabled => ?_⟩
  · exact congrArg Host.Outcome.next (pollStep_of_enabled hrun hnone)
  · have hctx : s.ctxOpen := by
      rintro ⟨hrun, hnone⟩
      simp [hrun, hnone] at hdisabled
    exact congrArg Host.Outcome.next (pollStep_of_ctxOpen hctx)

/-! ### SYS.RD (43_scheduler_gate R188) -/

theorem sysRd_rejectsAsTabled (r : Byte) : RejectsAsTabled (.sysRd r) :=
  rejectsAsTabled_of_tableChecks (fun s => exec_sysRd s r) fun s => by
    simp [firstRaised_cons, tableChecks, sregCheck, Instr.wf, needsInit, isGated, ownRejection]

theorem exec_sysRd_of_listed {s : State} {r : Byte} (hctx : s.ctxOpen) (hlisted : sregNumbers.contains r = true) :
    exec (.sysRd r) s = .next (s.answer .ok (sregValue s r)) := by
  rw [exec_sysRd, sregCheck_eq_none.2 hlisted, ctxCheck_eq_none.2 hctx]
  rfl

/-- Settles O48: a register's fields, one after the other, are the digits of its value. -/
theorem sysRdReadsStatusRegisters : Obligations.SysRdReadsStatusRegisters := by
  refine ⟨encodedF1_of_formOf rfl, sysRd_rejectsAsTabled, fun s r hctx hlisted hcount => ?_⟩
  refine ⟨sregValue s r, exec_sysRd_of_listed hctx hlisted, ?tbCount, ?tbRun, ?frCount, ?i2cCtl, ?i2cAddr, ?i2cStatus, ?toCnt,
    ?lengths, ?history, ?scheduler, ?gate⟩ <;> rintro rfl
  case tbCount => exact (sregValue_tbCount s).trans (tbTrunc_of_lt hcount)
  case tbRun => rw [sregValue_tbRun, zext32_toNat (by decide), bit_toNat]
  case frCount => exact sregValue_frCount s
  case i2cCtl => rw [sregValue_i2cCtl, zext32_append_toNat (by decide), bit_toNat, pow_one]
  case i2cAddr => rw [sregValue_i2cAddr, zext32_toNat (by decide)]
  case i2cStatus =>
    rw [sregValue_i2cStatus_toNat]
    cases s.i2cPhase <;> cases s.i2cDir <;> rfl
  case toCnt => exact sregValue_toCnt s
  case lengths => rw [sregValue_lengths, zext32_append_toNat (by decide)]
  case history => rw [sregValue_history, zext32_append_toNat (by decide)]
  case scheduler =>
    rw [sregValue_scheduler, zext32_append_toNat (by decide), toNat_append_fields, bit_toNat, bit_toNat]
    omega
  case gate => rw [sregValue_gate, zext32_append_toNat (by decide), bit_toNat, pow_one]

/-! ### The gate (43_scheduler_gate R186, R187) -/

/-- Settles O49: the owner is told so, a free gate goes to the requester where no operation is outstanding. -/
theorem gateReqGrantsOrDenies : Obligations.GateReqGrantsOrDenies := by
  refine ⟨encodedF0_of_formOf rfl, rejectsAsTabled_of_ctxCheck exec_gateReq (fun _ => rfl) rfl rfl (fun _ => rfl),
    fun s hctx => ?_⟩
  rw [exec_gateReq, guarded_of_ctxOpen hctx]
  refine ⟨fun hheld howner => ?_, fun hfree hidle => ?_, fun hheld hother => ?_, fun hfree hbusy => ?_⟩
  · rw [if_pos (State.ownsGate_iff.2 ⟨hheld, howner⟩)]
    rfl
  · rw [State.ownsGate_eq_false.2 (.inl hfree), hfree, hidle]
    rfl
  · rw [State.ownsGate_eq_false.2 (.inr hother), hheld]
    rfl
  · rw [State.ownsGate_eq_false.2 (.inl hfree), hfree, hbusy]
    rfl

/-- The release's own check is the table's: the requester owns the gate and an operation is outstanding. -/
theorem gateRel_ownCheck (s : State) : checkThat (!(s.ownsGate && s.i2cBusy)) .state = ownRejection .gateRel s := by
  simp only [ownRejection, ← and_assoc, ← State.ownsGate_iff]
  cases s.ownsGate <;> cases s.i2cBusy <;> rfl

theorem gateRel_rejectsAsTabled : RejectsAsTabled .gateRel :=
  rejectsAsTabled_of_tableChecks exec_gateRel fun s => by
    rw [gateRel_ownCheck]
    simp [firstRaised_cons, tableChecks, Instr.wf, needsInit, isGated]

/-- Settles O50: only the owner's own outstanding operation raises anything beside a closed context. -/
theorem gateRelReleasesOwn : Obligations.GateRelReleasesOwn := by
  refine ⟨encodedF0_of_formOf rfl, gateRel_rejectsAsTabled, fun s hctx => ?_⟩
  rw [exec_gateRel, ctxCheck_eq_none.2 hctx]
  refine ⟨fun hheld howner hidle => ?_, fun hother => ?_⟩
  · rw [State.ownsGate_iff.2 ⟨hheld, howner⟩, hidle]
    rfl
  · rw [State.ownsGate_eq_false.2 hother]
    rfl

end Sys2Proof.Machine
end

section
/-! Proofs of 43_scheduler_gate: the gate keeps every command of another requester out (R192). -/

namespace Sys2Proof.Machine

theorem SameTransport.refl (s : State) : SameTransport s s := by
  constructor <;> rfl

theorem SameTransport.answer (s : State) (st : Status) (v : Word) : SameTransport s (s.answer st v) := { SameTransport.refl s with }

/-- A delay hold that ends touches nothing but itself. -/
theorem SameTransport.endHold {s t : State} (h : SameTransport s t) : SameTransport s (endHold t) := by
  obtain ⟨-, -, he⟩ | ⟨-, he⟩ := endHold_cases t <;> rw [he]
  · exact { h with }
  · exact h

/-- A command leaves the transport alone where its own rule does: a rejection changes nothing. -/
theorem sameTransport_of_guarded {cs : List (Option Status)} {s t : State} {run : Result} (h : guarded cs s run = .next t)
    (hrun : run = .next t → SameTransport s t) : SameTransport s t := by
  obtain ⟨e, -, rfl⟩ | ⟨-, hr⟩ := guarded_next h
  · exact .answer s e 0
  · exact hrun hr

/-- Every command that the gate reserves is rejected as the table says. -/
theorem gated_rejectsAsTabled {i : Instr} (hi : isGated i = true) : RejectsAsTabled i := by
  cases i with
  | i2cInit a => exact i2cInit_rejectsAsTabled a
  | i2cSetaddr a => exact i2cSetaddr_rejectsAsTabled a
  | i2cReset => exact i2cReset_rejectsAsTabled
  | i2cPush b => exact i2cPush_rejectsAsTabled b
  | i2cStarttx => exact i2cStarttx_rejectsAsTabled
  | i2cStartrx n => exact i2cStartrx_rejectsAsTabled n
  | i2cWait => exact i2cWait_rejectsAsTabled
  | _ => exact absurd hi Bool.false_ne_true

/-- A command that the gate reserves is rejected while another requester owns it, if not for `E_DENIED` then for an earlier line. -/
theorem rejection_of_gate_closed {i : Instr} {s : State} (hi : isGated i = true) (hclosed : ¬s.gateOpen) :
    ∃ e, rejection i s = some e := by
  refine Option.ne_none_iff_exists'.1 fun hnone => hclosed (gateCheck_eq_none.1 ?_)
  exact check_passes ((firstRaised_tableChecks i s).trans hnone) (by simp [tableChecks, hi])

/-- The commands that the gate does not reserve write nothing of the transport, and the gate only for its owner or when it is free. -/
theorem ungated_sameTransport {i : Instr} {s t : State} (hbus : i.isBus = false) (hi : isGated i = false)
    (hheld : s.gateHeld = true) (hother : s.gateOwner ≠ s.requester) (h : exec i s = .next t) : SameTransport s t := by
  have hforeign : s.ownsGate = false := State.ownsGate_eq_false.2 (.inr hother)
  cases i with
  | busAck | busNack | busData | busStopped | busCollision => exact absurd hbus.symm Bool.false_ne_true
  | i2cInit | i2cSetaddr | i2cReset | i2cPush | i2cStarttx | i2cStartrx | i2cWait => exact absurd hi.symm Bool.false_ne_true
  | schRun | schRet | sysRd | tbStart | tbStop | tbNow | tbElapsed | i2cResult =>
    refine sameTransport_of_guarded h fun hr => ?_
    cases hr
    exact { SameTransport.refl s with }
  | dlyMs | dlyUs =>
    refine sameTransport_of_guarded h fun hr => ?_
    cases hr
    exact .endHold { SameTransport.refl s with }
  | i2cRxrd | i2cErrrd =>
    refine sameTransport_of_guarded h fun hr => ?_
    cases (loadByte_next hr).2
    exact .answer s .ok _
  | gateReq =>
    rw [exec_gateReq, hforeign, hheld] at h
    exact sameTransport_of_guarded h fun hr => Host.Outcome.next.inj hr ▸ .answer s .ok 0
  | gateRel =>
    rw [exec_gateRel, hforeign] at h
    exact sameTransport_of_guarded h fun hr => Host.Outcome.next.inj hr ▸ .answer s .ok 0

/-- Settles O51: a command that the gate reserves is rejected, every other one leaves the transport and the gate alone. -/
theorem gateKeepsOthersOut : Obligations.GateKeepsOthersOut := by
  intro i s t hbus hheld hother h
  cases hi : isGated i with
  | true =>
    obtain ⟨e, he⟩ := rejection_of_gate_closed hi (not_not_intro ⟨hheld, hother⟩)
    rw [gated_rejectsAsTabled hi s e he] at h
    cases h
    exact .answer s e 0
  | false => exact ungated_sameTransport hbus hi hheld hother h

end Sys2Proof.Machine
end

section
/-! Proofs of 60_exceptions: which agent a step serves (R203 to R205, R208), and that an open delay hold keeps the HOST back (R203). -/

namespace Sys2Proof.Machine

/-! ### A pending request, a bus record (60_exceptions R203 to R205, R208) -/

/-- Settles O3: of the four ways of a step, a pending request leaves the one of its handler. -/
theorem pendingRequestIsServedFirst : Obligations.PendingRequestIsServedFirst := by
  refine fun s => ⟨step_of_ipTick, fun hT hI => ?_⟩
  obtain ⟨hT', -⟩ | ⟨-, -, he⟩ | ⟨-, hI', -⟩ | ⟨-, hI', -⟩ := step_cases s
  · exact absurd (hT.symm.trans hT') Bool.false_ne_true
  · exact he
  · exact absurd (hI'.symm.trans hI) Bool.false_ne_true
  · exact absurd (hI'.symm.trans hI) Bool.false_ne_true

theorem performRecord_of_decode {r : Record} {i : Instr} (hd : decode (.bus r) = .ok i) (s : State) :
    performRecord r s = exec i s := by
  simp only [performRecord, hd]

/-- Settles O2: no hold keeps a record back, and a coincident `TICK` posts after what the record did. -/
theorem stepRunsDecodedRecord : Obligations.StepRunsDecodedRecord := by
  intro s r rest i ⟨hT, hI⟩ hd
  refine ⟨fun hagenda => ?_, fun hagenda t ht => ?_⟩
  · rw [step_label hT hI hagenda (.inr rfl), perform, performRecord_of_decode hd]
  · rw [step_label hT hI hagenda (.inr rfl), perform, performRecord_of_decode hd, ht, alsoTick, tickStep_eq, Bool.or_comm]

/-! ### An open delay hold (60_exceptions R203, 40_timebase R106) -/

/-- The delay hold, the responses and the labels to come are the same. -/
structure SameHold (s t : State) : Prop where
  active : t.dlyActive = s.dlyActive
  began : t.dlyT0 = s.dlyT0
  need : t.dlyNeed = s.dlyNeed
  resps : t.resps = s.resps
  agenda : t.agenda = s.agenda

/-- The hold has ended with `(OK, 0)`, its need reached. -/
structure HoldEnded (s t : State) : Prop where
  active : t.dlyActive = false
  began : t.dlyT0 = s.dlyT0
  need : t.dlyNeed = s.dlyNeed
  resps : t.resps = s.resps ++ [⟨.ok, 0⟩]
  agenda : t.agenda = s.agenda
  reached : t.dlyNeed.toNat ≤ t.dlyElapsed.toNat

theorem SameHold.refl (s : State) : SameHold s s := ⟨rfl, rfl, rfl, rfl, rfl⟩

theorem SameHold.tickStep {s t : State} (h : SameHold s t) : SameHold s (tickStep t) := by
  rw [tickStep_eq]
  exact { h with }

theorem pollStep_sameHold (s : State) : SameHold s (pollStep s) := by
  unfold pollStep
  split
  · exact { SameHold.refl s with }
  · exact .refl s

theorem busInstr_sameHold {i : Instr} {s t : State} (hi : i.isBus = true) (h : exec i s = .next t) : SameHold s t := by
  obtain rfl | ⟨-, -, e, d, w, rfl, -⟩ := busInstr_next hi h
  · exact .refl t
  · exact { SameHold.refl s with }

/-- A microsecond ends the hold, its need now reached, or leaves it open. -/
theorem usTickStep_hold (s : State) : SameHold s (usTickStep s) ∨ HoldEnded s (usTickStep s) := by
  obtain ⟨-, hreached, he⟩ | ⟨-, he⟩ := endHold_cases { s with frCount := s.frCount + 1 }
  all_goals rw [usTickStep, he]
  · exact .inr ⟨rfl, rfl, rfl, rfl, rfl, hreached⟩
  · exact .inl { SameHold.refl s with }

/-- Of the agents beside the HOST only the microsecond's can end a hold. -/
theorem perform_hold {l : Label} {s t : State} (hl : l.isCmd = false) (h : perform l s = .next t) :
    SameHold s t ∨ HoldEnded s t := by
  obtain ⟨p, i, rfl, -⟩ | ⟨p, e, rfl, -⟩ | ⟨-, rfl⟩ | ⟨-, rfl⟩ | ⟨-, rfl⟩ | ⟨r, i, -, hd, hx⟩ | ⟨r, i, u, -, hd, hx, rfl⟩ :=
    perform_next h
  · exact absurd hl.symm Bool.false_ne_true
  · exact absurd hl.symm Bool.false_ne_true
  · exact .inl (pollStep_sameHold s)
  · exact .inl (SameHold.refl s).tickStep
  · exact usTickStep_hold s
  · exact .inl (busInstr_sameHold (isBus_of_decode hd hl) hx)
  · exact .inl (busInstr_sameHold (isBus_of_decode hd hl) hx).tickStep

/-- Settles O16: the label that moves is no packet, or none moves at all. -/
theorem holdKeepsHostBack : Obligations.HoldKeepsHostBack := by
  rintro s t ⟨hT, hI⟩ hopen h
  obtain ⟨hT', -⟩ | ⟨-, hI', -⟩ | ⟨-, -, l, rest, hnext, he⟩ | ⟨-, -, -, he⟩ := step_cases s
  · exact absurd (hT.symm.trans hT') Bool.false_ne_true
  · exact absurd (hI.symm.trans hI') Bool.false_ne_true
  · obtain ⟨-, hother, -, -, hpackets⟩ := nextLabel_some hnext
    have hwait : rest.filter Label.isCmd = s.agenda.filter Label.isCmd := hpackets (hother hopen)
    obtain hsame | hended := perform_hold (hother hopen) (he.symm.trans h)
    · exact ⟨hsame.agenda ▸ hwait, hsame.began, hsame.need, .inl ⟨hsame.active.trans hopen, hsame.resps⟩⟩
    · exact ⟨hended.agenda ▸ hwait, hended.began, hended.need, .inr ⟨hended.active, hended.resps, hended.reached⟩⟩
  · cases he.symm.trans h
    exact ⟨rfl, rfl, rfl, .inl ⟨hopen, rfl⟩⟩

end Sys2Proof.Machine
end

section
/-! Proofs of 60_exceptions: the two handlers in either order (R204, 20_memory R72), and the faults of the transport (R215). -/

namespace Sys2Proof.Machine

/-! ### TickIsr before or after a part of I2cIsr (60_exceptions R204) -/

/-- The outcome with the tick served after it, where there is a next state. -/
def thenTick : Result → Result
  | .next t => .next (tickIsr t)
  | .fault f => .fault f
  | .refused r => .refused r

/-- It is the same to serve the tick before a run or after it. -/
def TickCommutes (run : State → Result) : Prop := ∀ s, run (tickIsr s) = thenTick (run s)

/-- No part of the transport is the tick's, so an access finds the same byte before and after it. -/
theorem loadByte_tickIsr {sp : Space} {i : Nat} {s : State} {k k' : Byte → Result} (hk : ∀ b, k' b = thenTick (k b)) :
    loadByte sp i (tickIsr s) k' = thenTick (loadByte sp i s k) := by
  have hspace : (tickIsr s).space sp = s.space sp := by cases sp <;> rfl
  rw [loadByte, loadByte, hspace, apply_ite thenTick, hk]
  rfl

theorem storeByte_tickIsr {sp : Space} {i : Nat} {v : Byte} {s : State} {k : State → Result} (hk : TickCommutes k) :
    storeByte sp i v (tickIsr s) k = thenTick (storeByte sp i v s k) := by
  have hwritten : (tickIsr s).withByte sp i v = tickIsr (s.withByte sp i v) := by cases sp <;> rfl
  rw [storeByte, storeByte, hwritten, apply_ite thenTick, hk]
  rfl

theorem faultCallback_tickCommutes (k : FaultKind) : TickCommutes (faultCallback k) := by
  refine fun s => storeByte_tickIsr fun u => ?_
  have hstopped : (if (tickIsr u).i2cPhase != .stop then (tickIsr u).drive [.stop] else tickIsr u) =
      tickIsr (if u.i2cPhase != .stop then u.drive [.stop] else u) := by
    rw [apply_ite tickIsr]
    rfl
  simp only [hstopped]
  generalize (if u.i2cPhase != .stop then u.drive [.stop] else u) = stopped
  rfl

theorem addressAcked_loads {s : State} (hd : s.i2cDir = .transmit) (hlen : s.i2cLen ≠ 0) :
    addressAcked s = loadByte .txbuf 0 s fun b => .next (State.drive { s with i2cPhase := .tx } [.sent b]) := by
  rw [addressAcked, hd]
  exact if_neg hlen

theorem addressAcked_tickCommutes : TickCommutes addressAcked := by
  intro s
  cases hd : s.i2cDir with
  | receive =>
    rw [addressAcked_receive hd, addressAcked_receive (s := tickIsr s) hd]
    rfl
  | transmit =>
    by_cases hlen : s.i2cLen = 0
    · rw [addressAcked_empty hd hlen, addressAcked_empty (s := tickIsr s) hd hlen]
      rfl
    · rw [addressAcked_loads hd hlen, addressAcked_loads (s := tickIsr s) hd hlen]
      exact loadByte_tickIsr fun _ => rfl

theorem byteAcked_loads {s : State} (hmore : s.i2cIdx + 1 ≠ s.i2cLen) :
    byteAcked s = loadByte .txbuf (s.i2cIdx + 1).toNat s fun b =>
      .next (State.drive { s with i2cIdx := s.i2cIdx + 1 } [.sent b]) := if_neg hmore

theorem byteAcked_tickCommutes : TickCommutes byteAcked := by
  intro s
  by_cases hlast : s.i2cIdx + 1 = s.i2cLen
  · rw [byteAcked_last hlast, byteAcked_last (s := tickIsr s) hlast]
    rfl
  · rw [byteAcked_loads hlast, byteAcked_loads (s := tickIsr s) hlast]
    exact loadByte_tickIsr fun _ => rfl

theorem byteReceived_tickCommutes (d : Byte) : TickCommutes (byteReceived d) := by
  refine fun s => storeByte_tickIsr fun u => ?_
  simp only [apply_ite thenTick]
  rfl

/-- An arm that both states select. -/
theorem TickCommutes.of_arm {run : State → Result} (hrun : TickCommutes run) {e : Event} {d : Byte} {s : State}
    (hbefore : i2cArm e d (tickIsr s) = run (tickIsr s)) (hafter : i2cArm e d s = run s) :
    i2cArm e d (tickIsr s) = thenTick (i2cArm e d s) := by
  rw [hbefore, hafter, hrun]

/-- The tick does not touch the phase, so the event selects the same arm before and after it. -/
theorem i2cArm_tickCommutes (e : Event) (d : Byte) : TickCommutes (i2cArm e d) := by
  intro s
  by_cases hfits : eventFits s.i2cPhase e
  · cases e with
    | none => exact hfits.elim
    | ack =>
      obtain hp | hp := hfits
      · exact addressAcked_tickCommutes.of_arm (i2cArm_ack_addr d hp) (i2cArm_ack_addr d hp)
      · exact byteAcked_tickCommutes.of_arm (i2cArm_ack_tx d hp) (i2cArm_ack_tx d hp)
    | nack =>
      obtain hp | hp := hfits
      · exact (faultCallback_tickCommutes _).of_arm (i2cArm_nack_addr d hp) (i2cArm_nack_addr d hp)
      · exact (faultCallback_tickCommutes _).of_arm (i2cArm_nack_tx d hp) (i2cArm_nack_tx d hp)
    | data => exact (byteReceived_tickCommutes d).of_arm (i2cArm_data_rx d hfits) (i2cArm_data_rx d hfits)
    | stopped => rw [i2cArm_stopped_stop (s := tickIsr s) d hfits, i2cArm_stopped_stop d hfits]; rfl
    | wcol => exact (faultCallback_tickCommutes _).of_arm (i2cArm_wcol d hfits) (i2cArm_wcol d hfits)
    | timeout => exact (faultCallback_tickCommutes _).of_arm (i2cArm_timeout d hfits) (i2cArm_timeout d hfits)
  · rw [i2cArm_of_unfit (s := tickIsr s) d hfits, i2cArm_of_unfit d hfits]
    rfl

/-- Settles O39: the tick neither reads nor writes the latch, its request or what the arms use. -/
theorem handlersCommute : Obligations.HandlersCommute :=
  fun s => i2cArm_tickCommutes s.i2cEv s.i2cEvData s.clearI2cRequest

/-! ### The faults of the transport (60_exceptions R215, 42_i2c_bus_fsm R160) -/

/-- The ring's head moves on modulo the capacity. -/
theorem errAdvance_head_mod {s : State} (hcap : s.cfg.i2cErrlogLen ≤ 255) (hhead : s.i2cErrHead.toNat < s.cfg.i2cErrlogLen) :
    s.errAdvance.i2cErrHead.toNat = (s.i2cErrHead.toNat + 1) % s.cfg.i2cErrlogLen := by
  have hlt := Nat.mod_lt (s.i2cErrHead.toNat + 1) (Nat.zero_lt_of_lt hhead)
  rw [State.errAdvance_i2cErrHead, BitVec.toNat_ofNat, Nat.mod_eq_of_lt (by omega)]

/-- `Fault(k)` where the ring's head exists. -/
theorem faultCallback_eq {s : State} (hhead : s.i2cErrHead.toNat < s.cfg.i2cErrlogLen) (k : FaultKind) :
    faultCallback k s = .next { s with
      wire := s.wire ++ (if s.i2cPhase ≠ .stop then [.stop] else [])
      i2cError := true, i2cBusy := false, i2cPhase := .idle
      i2cErrlog := s.i2cErrlog.write s.i2cErrHead.toNat k.code
      i2cErrHead := s.errAdvance.i2cErrHead, i2cErrCount := s.errAdvance.i2cErrCount
      trace := s.trace ++ [.cb (.fault k)] } := by
  obtain ⟨t, ht⟩ := faultCallback_runs (k := k) hhead
  obtain ⟨-, rfl⟩ := faultCallback_next ht
  exact ht

/-- Settles O36: each of the four events runs `Fault` of its class, whose code is the number of R215. -/
theorem faultCallbackRecordsAndIdles : Obligations.FaultCallbackRecordsAndIdles := by
  intro s d e k c hc hhead _ hevent
  obtain ⟨-, -, ⟨-, hcap⟩, -⟩ := hc
  have harm : i2cArm e d s = faultCallback k s ∧ k.code = c := by
    obtain ⟨hp, rfl, rfl, rfl⟩ | ⟨hp, rfl, rfl, rfl⟩ | ⟨hp, rfl, rfl, rfl⟩ | ⟨hp, rfl, rfl, rfl⟩ := hevent
    · exact ⟨i2cArm_nack_addr d hp, rfl⟩
    · exact ⟨i2cArm_nack_tx d hp, rfl⟩
    · exact ⟨i2cArm_wcol d hp, rfl⟩
    · exact ⟨i2cArm_timeout d hp, rfl⟩
  obtain ⟨hfault, rfl⟩ := harm
  exact ⟨_, _, _, hfault.trans (faultCallback_eq hhead k), fun hwf => Memory.read_write hwf _ _,
    errAdvance_head_mod hcap hhead, errAdvance_count_toNat hcap⟩

end Sys2Proof.Machine
end

section
/-! Proofs of 60_exceptions: every command is rejected as the tables say, and only then (R210 to R213). -/

namespace Sys2Proof.Machine

/-! ### Rejected where the tables say (60_exceptions R211, R212) -/

theorem command_rejectsAsTabled {i : Instr} (hbus : i.isBus = false) : RejectsAsTabled i := by
  cases i with
  | busAck | busNack | busData | busStopped | busCollision => exact absurd hbus.symm Bool.false_ne_true
  | i2cInit | i2cSetaddr | i2cReset | i2cPush | i2cStarttx | i2cStartrx | i2cWait => exact gated_rejectsAsTabled rfl
  | schRun => exact schRun_rejectsAsTabled
  | schRet => exact schRet_rejectsAsTabled
  | sysRd r => exact sysRd_rejectsAsTabled r
  | tbStart => exact rejectsAsTabled_of_ctxCheck exec_tbStart (fun _ => rfl) rfl rfl (fun _ => rfl)
  | tbStop => exact rejectsAsTabled_of_ctxCheck exec_tbStop (fun _ => rfl) rfl rfl (fun _ => rfl)
  | tbNow => exact rejectsAsTabled_of_ctxCheck exec_tbNow (fun _ => rfl) rfl rfl (fun _ => rfl)
  | tbElapsed stamp => exact tbElapsed_rejectsAsTabled stamp
  | dlyMs n => exact rejectsAsTabled_of_ctxCheck (exec_dlyMs n) (fun _ => rfl) rfl rfl (fun _ => rfl)
  | dlyUs n => exact rejectsAsTabled_of_ctxCheck (exec_dlyUs n) (fun _ => rfl) rfl rfl (fun _ => rfl)
  | i2cResult => exact i2cResult_rejectsAsTabled
  | i2cRxrd x => exact i2cRxrd_rejectsAsTabled x
  | i2cErrrd x => exact i2cErrrd_rejectsAsTabled x
  | gateReq => exact rejectsAsTabled_of_ctxCheck exec_gateReq (fun _ => rfl) rfl rfl (fun _ => rfl)
  | gateRel => exact gateRel_rejectsAsTabled

/-! ### No rejection beside the tables -/

/-- An outcome that delivers no rejection and is none of the model's refusals: no response, or one with the status `OK`. -/
def DeliversNoRejection (s : State) : Result → Prop
  | .next t => t.resps = s.resps ∨ ∃ v : Word, t.resps = s.resps ++ [⟨.ok, v⟩]
  | .fault _ => True
  | .refused _ => False

theorem DeliversNoRejection.respond {s u : State} (hresps : u.resps = s.resps) (v : Word) :
    DeliversNoRejection s (.next (u.respond v)) := .inr ⟨v, by rw [State.respond_resps, hresps]⟩

theorem DeliversNoRejection.ite {s : State} {p : Prop} [Decidable p] {run run' : Result} (h : DeliversNoRejection s run)
    (h' : DeliversNoRejection s run') : DeliversNoRejection s (if p then run else run') := by
  split
  · exact h
  · exact h'

theorem DeliversNoRejection.loadByte {s : State} {sp : Space} {i : Nat} {k : Byte → Result}
    (hk : ∀ b, DeliversNoRejection s (k b)) : DeliversNoRejection s (loadByte sp i s k) := .ite (hk _) trivial

theorem DeliversNoRejection.storeByte {s : State} {sp : Space} {i : Nat} {v : Byte} {k : State → Result}
    (hk : DeliversNoRejection s (k (s.withByte sp i v))) : DeliversNoRejection s (storeByte sp i v s k) := .ite hk trivial

theorem DeliversNoRejection.beginHold (need : Word) (s : State) : DeliversNoRejection s (.next (beginHold need s)) := by
  obtain ⟨-, -, he⟩ | ⟨-, he⟩ := endHold_cases { s with dlyT0 := s.frCount, dlyNeed := need, dlyActive := true }
  all_goals rw [Machine.beginHold, he]
  · exact .respond rfl 0
  · exact .inl rfl

theorem countWait_resps (s : State) : s.countWait.resps = s.resps := by
  simp only [State.countWait]
  split <;> rfl

/-- A command whose checks pass delivers what its own rule does. -/
theorem DeliversNoRejection.of_pass {cs : List (Option Status)} {s : State} {run : Result} (hpass : ∀ c ∈ cs, c = none)
    (hrun : DeliversNoRejection s run) : DeliversNoRejection s (guarded cs s run) := by
  rwa [guarded_pass (firstRaised_eq_none.2 hpass)]

/-- What the checks of a command ask for, where the tables give no status. -/
theorem passes_of_no_rejection {i : Instr} {s : State} (hnone : rejection i s = none) :
    i.wf s.cfg = true ∧ ctxCheck s = none ∧ (needsInit i = true → initCheck s = none) ∧
    (isGated i = true → gateCheck s = none) ∧ ownRejection i s = none := by
  have hpass := firstRaised_eq_none.1 ((firstRaised_tableChecks i s).trans hnone)
  simpa [tableChecks] using hpass

/-- Where the tables give no status every check passes, and no command's own rule delivers a rejection. -/
theorem exec_deliversNoRejection {i : Instr} {s : State} (hbus : i.isBus = false) (hnone : rejection i s = none) :
    DeliversNoRejection s (exec i s) := by
  obtain ⟨hwf, hctx, hinit, hgate, hown⟩ := passes_of_no_rejection hnone
  cases i with
  | busAck | busNack | busData | busStopped | busCollision => exact absurd hbus.symm Bool.false_ne_true
  | schRun => exact .of_pass (by simpa [hctx, ownRejection] using hown) (.respond rfl 0)
  | schRet => exact .of_pass (by simpa [hctx, ownRejection] using hown) (.respond rfl 0)
  | sysRd r => exact .of_pass (by simpa [hctx, sregCheck, Instr.wf] using hwf) (.respond rfl _)
  | tbStart | tbStop => exact .of_pass (by simp [hctx]) (.respond rfl 0)
  | tbNow => exact .of_pass (by simp [hctx]) (.respond rfl _)
  | tbElapsed stamp => exact .of_pass (by simpa [hctx, stampCheck, Instr.wf] using hwf) (.respond rfl _)
  | dlyMs n => exact .of_pass (by simp [hctx]) (.beginHold _ s)
  | dlyUs n => exact .of_pass (by simp [hctx]) (.beginHold _ s)
  | i2cInit a =>
    refine .of_pass ?_ (.respond rfl 0)
    simpa [hctx, hgate rfl, addressCheck, Instr.wf, ownRejection] using And.intro hwf hown
  | i2cSetaddr a =>
    refine .of_pass ?_ (.respond rfl 0)
    simpa [hctx, hinit rfl, hgate rfl, addressCheck, idleCheck, Instr.wf, ownRejection] using And.intro hwf hown
  | i2cReset =>
    refine .of_pass (by simp [hctx, hinit rfl, hgate rfl]) (.respond ?_ 0)
    rw [drive_stop_of_owesStop, State.clearI2cRequest_resps, State.clearOperation_resps, State.drive_resps]
  | i2cPush b =>
    refine .of_pass ?_ (.ite (.respond rfl 0) (.storeByte (.respond rfl 1)))
    cases hbusy : s.i2cBusy with
    | true => simp [hctx, hinit rfl, hgate rfl]
    | false => simpa [hctx, hinit rfl, hgate rfl, hbusy, ownRejection] using hown
  | i2cStarttx =>
    exact .of_pass (by simp [hctx, hinit rfl, hgate rfl]) (.ite (.respond rfl 0) (.respond rfl 1))
  | i2cStartrx n =>
    refine .of_pass ?_ (.ite (.respond rfl 0) (.respond rfl 1))
    simpa [hctx, hinit rfl, hgate rfl, countCheck, Instr.wf] using hwf
  | i2cWait =>
    exact .of_pass (by simp [hctx, hinit rfl, hgate rfl]) (.ite (.respond (countWait_resps s) 1) (.respond rfl 0))
  | i2cResult => exact .of_pass (by simp [hctx, hinit rfl]) (.respond rfl _)
  | i2cRxrd x =>
    exact .of_pass (by simpa [hctx, hinit rfl, ownRejection] using hown) (.loadByte fun _ => .respond rfl _)
  | i2cErrrd x =>
    exact .of_pass (by simpa [hctx, hinit rfl, ownRejection] using hown) (.loadByte fun _ => .respond rfl _)
  | gateReq => exact .of_pass (by simp [hctx]) (.ite (.respond rfl 1) (.ite (.respond rfl 1) (.respond rfl 0)))
  | gateRel =>
    refine .of_pass ?_ (.ite (.respond rfl 1) (.respond rfl 0))
    rw [hctx, gateRel_ownCheck, hown]
    simp

/-- Settles O52: a status of the tables is what the command answers, and without one its own rule runs. -/
theorem commandsRejectByPriority : Obligations.CommandsRejectByPriority := by
  refine ⟨⟨rfl, rfl, rfl, rfl, rfl, rfl, rfl⟩, fun i s hbus => ⟨command_rejectsAsTabled hbus s, fun hnone t ht => ?_, ?_⟩⟩
  · have hdelivers := exec_deliversNoRejection hbus hnone
    rwa [ht] at hdelivers
  · intro r hr
    cases hrej : rejection i s with
    | some e => exact nomatch (command_rejectsAsTabled hbus s e hrej).symm.trans hr
    | none =>
      have hdelivers := exec_deliversNoRejection hbus hrej
      rwa [hr] at hdelivers

end Sys2Proof.Machine
end
